-- ==== Sys2Proof/Word.lean ====
section
/-! DEFINITION. The 32-bit word and the byte (10_state.md R53, 20_memory.md R157). -/

namespace Sys2Proof

/-- A register, a sample-window word or a binary32 bit pattern (00_scope.md R7, R9). -/
abbrev Word := BitVec 32

/-- One byte lane of a word (20_memory.md R157). -/
abbrev Byte := BitVec 8

end Sys2Proof
end

