-- ==== Sys2Proof/Config.lean ====
section
/-! DEFINITION. The parameters of 00_scope.md R5 at their default values, and the free values: what the spec leaves to
an oracle (00_scope.md R13) or fixes to no bit pattern (00_scope.md R9). A free value is an opaque constant with no body,
so that no proof can see what it is. Binary32 constants are given as bit patterns; the tests check each against its
decimal. -/

namespace Sys2Proof.Config

/-! ## Free values -/

/-- Oracle NOISE before its range is imposed (R13): the k-th draw of a Noise sample. -/
opaque noise : Nat → Word

/-- Oracle DEVOK (R13): the device's answer to its k-th start or stop request. -/
opaque devOk : Nat → Bool

/-- Oracle CPULOAD before its range is imposed (R13): the k-th frame request's cpu_load. -/
opaque cpuLoad : Nat → Word

/-- The sign and payload of a NaN result (R9: "its bit pattern is any quiet NaN, not fixed by this spec"), by the
operation that made it and its two operands. -/
opaque nanBits : Nat → Word → Word → Word

/-! ## Oscillators (R5) -/

def tableSize : Nat := 4096
/-- `TWO_PI`, the binary32 nearest 2π (R12). -/
def twoPi : Word := 0x40C90FDB#32
def fMin : Word := 0x41A00000#32
def fMax : Word := 0x469C4000#32
def midiRefNote : Int := 69
def midiRefFreq : Word := 0x43DC0000#32
def notesPerOctave : Word := 0x41400000#32
def noteMax : Nat := 127
def velocityMax : Nat := 127
def velocityScale : Word := 0x42FE0000#32
def polyVoices : Nat := 8
def stealSlot : Nat := 0

/-! ## Envelopes (R5) -/

def envTMin : Word := 0x3A83126F#32
def envTMax : Word := 0x40A00000#32
def envEpsilon : Word := 0x38D1B717#32
def epoolSize : Nat := 8

/-! ## Effects (R5) -/

def qMin : Word := 0x3DCCCCCD#32
def qMax : Word := 0x41200000#32
def dlyMaxS : Word := 0x3F800000#32
def feedbackMax : Word := 0x3F733333#32
def revBaseE1 : Word := 0x3CF5C28F#32
def revBaseE2 : Word := 0x3D3851EC#32
def revBaseE3 : Word := 0x3D75C28F#32
def revBaseT : Word := 0x3DCCCCCD#32
def revEarlyW : Word := 0x3E99999A#32

/-! ## Mixer (R5) -/

def volMax : Word := 0x40000000#32
def panMin : Word := 0xBF800000#32
def panMax : Word := 0x3F800000#32
def scThresh : Word := 0x3F733333#32
def scRange : Word := 0x3D4CCCCD#32
def defaultRampMs : Word := 0x41200000#32
def rampMsMax : Word := 0x461C4000#32
def mixMaxChannels : Nat := 8

/-! ## Pools, chain, engine, window (R5) -/

def nOsc : Nat := 16
def nPoly : Nat := 4
def nEnv : Nat := 16
def nEpool : Nat := 4
def nDly : Nat := 4
def nFlt : Nat := 4
def nRev : Nat := 2
def maxChain : Nat := 8
def srMin : Nat := 8000
def srMax : Nat := 192000
def outChannels : Nat := 2
def bufszMax : Nat := 8192
def bufFactor : Nat := 4
def swinWords : Nat := 16384

/-! ## Values at unit creation (R5 UNIT_DEFAULTS, 92_eei_decisions.md D23) -/

def defFreq : Word := 0x43DC0000#32
def defAttack : Word := 0x3DCCCCCD#32
def defDecay : Word := 0x3DCCCCCD#32
def defSustain : Word := 0x3F333333#32
def defRelease : Word := 0x3E99999A#32
def defDlyTime : Word := 0x3DCCCCCD#32
def defFeedback : Word := 0x3E99999A#32
def defCutoff : Word := 0x447A0000#32
def defQ : Word := 0x3F3504F3#32
def defRoom : Word := 0x3F000000#32
def defRevDecay : Word := 0x3F000000#32
def defDlyWet : Word := 0x3F000000#32
def defRevWet : Word := 0x3E99999A#32

/-! ## Identification and port layout (10_state.md R53, R62) -/

def idWord : Word := 0x4147534F#32
def versionWord : Word := 0x00000007#32
/-- The command port's size in bytes: 128 KiB (R53). -/
def portBytes : Nat := 0x20000
/-- The offset of SWIN word 0 (R53). -/
def swinBase : Nat := 0x10000
/-- The null result of a failed create (10_state.md R55). -/
def nullResult : Word := 0xFFFFFFFF#32

end Sys2Proof.Config
end

