-- ==== Sys2Proof/Machine/Float.lean ====
section
/-! DEFINITION. Binary32 arithmetic, NUMERICS = B32 (00_scope.md R9, R10, R15): each operation gives its exact result
rounded once to nearest, ties to even, with subnormals kept. Every finite binary32 value is a whole number of units of
2^-149, so exact results are integers or ratios of integers in that unit and one function rounds them all. -/

namespace Sys2Proof.B32

/-! ## Reading a bit pattern -/

/-- The sign bit (20_memory.md R157: bit 31). -/
def sign (x : Word) : Bool := 2 ^ 31 ≤ x.toNat

/-- Bits [30:0]: exponent and fraction. -/
def mag (x : Word) : Nat := x.toNat % 2 ^ 31

/-- Exponent all ones, fraction nonzero (60_exceptions.md R631: quiet or signalling). -/
def isNaN (x : Word) : Bool := 0x7F800000 < mag x

def isInf (x : Word) : Bool := mag x == 0x7F800000

def isFinite (x : Word) : Bool := mag x < 0x7F800000

/-- |x| in units of 2^-149, for a finite x. -/
def units (x : Word) : Nat :=
  if mag x / 2 ^ 23 = 0 then mag x else (2 ^ 23 + mag x % 2 ^ 23) * 2 ^ (mag x / 2 ^ 23 - 1)

/-- The value of a finite x in units of 2^-149. -/
def val (x : Word) : Int := if sign x then -(units x : Int) else (units x : Int)

/-! ## Rounding -/

/-- The integer nearest `n / d`, ties to even (R9). -/
def roundNat (n d : Nat) : Nat :=
  if 2 * (n % d) < d then n / d
  else if d < 2 * (n % d) then n / d + 1
  else n / d + n / d % 2

/-- The base-2 logarithm by halving the range of the shift: the sum of those listed shifts that the number still admits. -/
def ilogBy : List Nat → Nat → Nat
  | [], _ => 0
  | b :: bs, q => if q < 2 ^ b then ilogBy bs q else b + ilogBy bs (q / 2 ^ b)

/-- floor(log2 q) for 0 < q < 2^1024 (`ilog_spec`), 0 for 0. -/
def ilog (q : Nat) : Nat := ilogBy [512, 256, 128, 64, 32, 16, 8, 4, 2, 1] q

/-- How many low bits of a magnitude of `q` units a 24-bit significand drops. -/
def drop (q : Nat) : Nat := ilog q - 23

/-- Bits [30:0] of the binary32 value nearest `n / d` units, ties to even; past the largest finite value, infinity.
Adding the dropped-bit count in the exponent field to the rounded significand carries into the next binade by itself. -/
def encMag (n d : Nat) : Nat :=
  min (drop (n / d) * 2 ^ 23 + roundNat n (d * 2 ^ drop (n / d))) 0x7F800000

/-- The binary32 value nearest ±(n / d) units. -/
def ofUnits (neg : Bool) (n d : Nat) : Word :=
  BitVec.ofNat 32 (encMag n d + if neg then 2 ^ 31 else 0)

/-- The binary32 value nearest the ratio `n / d` (R9: literals; R15: `f32(k)`); zero is +0.0. -/
def ofRatio (n : Int) (d : Nat) : Word := ofUnits (decide (n < 0)) (n.natAbs * 2 ^ 149) d

/-- `f32(k)` (R9). -/
def ofInt (k : Int) : Word := ofRatio k 1

def ofNat (k : Nat) : Word := ofUnits false (k * 2 ^ 149) 1

/-! ## Signs and constants -/

def zero : Word := 0x00000000#32
def one : Word := 0x3F800000#32
def two : Word := 0x40000000#32
def inf (neg : Bool) : Word := if neg then 0xFF800000#32 else 0x7F800000#32
def signedZero (neg : Bool) : Word := if neg then 0x80000000#32 else 0x00000000#32

/-- `-v` flips the sign bit (R9). -/
def neg (x : Word) : Word := x ^^^ 0x80000000#32

/-- `|v|` clears the sign bit (R9). -/
def abs (x : Word) : Word := x &&& 0x7FFFFFFF#32

/-- `m` with the sign bit of `s` (44_channel_mixer.md R474). -/
def withSign (m s : Word) : Word := (m &&& 0x7FFFFFFF#32) ||| (s &&& 0x80000000#32)

/-- A NaN result: any quiet NaN (R9; the sign and payload are the free value `Config.nanBits`). `op` numbers the
operation. -/
def nan (op : Nat) (a b : Word) : Word := 0x7FC00000#32 ||| Config.nanBits op a b

/-! ## Operations (R9) -/

/-- `a + b`. An exact sum of zero is +0.0, or -0.0 when both operands are negative. -/
def add (a b : Word) : Word :=
  if isNaN a || isNaN b then nan 0 a b
  else if isInf a then (if isInf b && (sign a != sign b) then nan 0 a b else a)
  else if isInf b then b
  else if val a + val b = 0 then signedZero (sign a && sign b)
  else ofUnits (decide (val a + val b < 0)) (val a + val b).natAbs 1

/-- `a - b`. -/
def sub (a b : Word) : Word := add a (neg b)

/-- `a · b`. -/
def mul (a b : Word) : Word :=
  if isNaN a || isNaN b then nan 1 a b
  else if isInf a || isInf b then
    (if mag a = 0 || mag b = 0 then nan 1 a b else inf (sign a != sign b))
  else ofUnits (sign a != sign b) (units a * units b) (2 ^ 149)

/-- `a / b`. -/
def div (a b : Word) : Word :=
  if isNaN a || isNaN b then nan 2 a b
  else if isInf a then (if isInf b then nan 2 a b else inf (sign a != sign b))
  else if isInf b then signedZero (sign a != sign b)
  else if mag b = 0 then (if mag a = 0 then nan 2 a b else inf (sign a != sign b))
  else ofUnits (sign a != sign b) (units a * 2 ^ 149) (units b)

/-- `fmod(a, b)`: the exact remainder with the sign of `a`, never rounded (R9). -/
def fmod (a b : Word) : Word :=
  if isNaN a || isNaN b || isInf a || mag b = 0 then nan 3 a b
  else if isInf b then a
  else ofUnits (sign a) (units a % units b) 1

/-! ## Comparisons (R9): false when either side is NaN, and -0.0 = +0.0 -/

/-- The order of the non-NaN values, as integers. -/
def key (x : Word) : Int := if sign x then -(mag x : Int) else (mag x : Int)

def lt (a b : Word) : Bool := !isNaN a && !isNaN b && decide (key a < key b)
def le (a b : Word) : Bool := !isNaN a && !isNaN b && decide (key a ≤ key b)

/-- `clamp(v, lo, hi) = lo if v < lo, else hi if v > hi, else v` (R10). -/
def clamp (v lo hi : Word) : Word := if lt v lo then lo else if lt hi v then hi else v

/-- `min` returns one of its operands (R9). -/
def minF (a b : Word) : Word := if lt b a then b else a

/-- `max` returns one of its operands (R9). -/
def maxF (a b : Word) : Word := if lt a b then b else a

/-! ## To integers (R10) -/

/-- `floor(v)` of a finite v. -/
def floor (x : Word) : Int := val x / 2 ^ 149

/-- `roundHalfAway(v)` of a finite v: the nearest integer, ties away from zero. -/
def roundHalfAway (x : Word) : Int :=
  if sign x then -(((2 * units x + 2 ^ 149) / 2 ^ 150 : Nat) : Int) else (((2 * units x + 2 ^ 149) / 2 ^ 150 : Nat) : Int)

end Sys2Proof.B32
end

