-- ==== Sys2Proof/Machine/Elementary.lean ====
section
/-! DEFINITION. The elementary functions, ELEMFN = correctly rounded (00_scope.md R11), and the SINE table
(41_oscillator.md R300). Each value is a Taylor sum in fixed point with 256 fraction bits, then rounded once to
binary32. π and ln 2 stand as integers in a 512-bit and a 256-bit scale; the tests compute both again from their series. -/

namespace Sys2Proof.Elem

/-- floor(2π · 2^512). -/
def twoPi512 : Nat :=
  0x6487ED5110B4611A62633145C06E0E68948127044533E63A0105DF531D89CD9128A5043CC71A026EF7CA8CD9E69D218D98158536F92F8A1BA7F09AB6B6A8E122F

/-- floor(ln 2 · 2^256). -/
def ln2Fix : Nat :=
  0xB17217F7D1CF79ABC9E3B39803F2F6AF40F343267298B62D8A0D175B8BAAFA2B

/-- The alternating Taylor sum t - t·r²/((j+1)(j+2)) + ..., `k` terms, where `t` is the j-th term x^j/j! and `r2` is r²,
both in 2^-256. -/
def alternating (r2 : Nat) : Nat → Nat → Nat → Int
  | 0, _, _ => 0
  | k + 1, j, t => (t : Int) - alternating r2 k (j + 2) (t * r2 / (2 ^ 256 * ((j + 1) * (j + 2))))

/-- sin r and cos r in 2^-256, for an angle 0 ≤ r ≤ 2π in 2^-256. -/
def sinFix (r : Nat) : Int := alternating (r * r / 2 ^ 256) 50 1 r
def cosFix (r : Nat) : Int := alternating (r * r / 2 ^ 256) 50 0 (2 ^ 256)

/-- The Taylor sum t + t·y/(j+1) + ..., `k` terms, in 2^-256. -/
def expSum (y : Nat) : Nat → Nat → Nat → Nat
  | 0, _, _ => 0
  | k + 1, j, t => t + expSum y k (j + 1) (t * y / (2 ^ 256 * (j + 1)))

/-- |x| modulo 2π in 2^-256, for a finite x. -/
def reduce (x : Word) : Nat := B32.units x * 2 ^ 363 % twoPi512 / 2 ^ 256

/-- The binary32 value nearest a fixed-point number in 2^-256; zero is given the sign `neg0`. -/
def roundFix (v : Int) (neg0 : Bool) : Word :=
  B32.ofUnits (if v = 0 then neg0 else decide (v < 0)) (v.natAbs * 2 ^ 149) (2 ^ 256)

/-- `sin32(x)`: the binary32 value nearest sin x (R11). -/
def sin32 (x : Word) : Word :=
  if B32.isFinite x then
    roundFix (if B32.sign x then -sinFix (reduce x) else sinFix (reduce x)) (B32.sign x)
  else B32.nan 4 x 0

/-- `cos32(x)`: the binary32 value nearest cos x (R11). -/
def cos32 (x : Word) : Word :=
  if B32.isFinite x then roundFix (cosFix (reduce x)) false else B32.nan 5 x 0

/-- `exp2_32(x)`: the binary32 value nearest 2^x (R11). With n = floor x, 2^x = 2^n · e^((x - n) ln 2). From x = 128 on
the value is past the largest finite one, and to x = -150 it rounds to +0.0. -/
def exp2_32 (x : Word) : Word :=
  if B32.isNaN x then B32.nan 6 x 0
  else if B32.le 0x43000000#32 x then B32.inf false
  else if B32.le x 0xC3160000#32 then B32.zero
  else
    B32.ofUnits false
      (expSum ((B32.val x % 2 ^ 149).toNat * ln2Fix / 2 ^ 149) 60 0 (2 ^ 256) * 2 ^ (B32.floor x + 300).toNat)
      (2 ^ 407)

/-- SINE[i]: the binary32 value nearest sin(2π·i/4096), the argument taken exactly; SINE[0] = SINE[2048] = +0.0
(41_oscillator.md R300, 00_scope.md R11). -/
def sineEntry (i : Nat) : Word :=
  if i % 2048 = 0 then B32.zero
  else
    roundFix
      (if i % 4096 < 2048 then sinFix (twoPi512 * (i % 2048) / 2 ^ 268)
       else -sinFix (twoPi512 * (i % 2048) / 2 ^ 268)) false

end Sys2Proof.Elem
end

