-- ==== Sys2Proof/Syntax.lean ====
section
/-! DEFINITION. The commands (30_encoding.md R202), their operand forms (R201), the steps other agents ask of the block
(20_memory.md R150) and the spec's assembly statements (R206, R207). A command word carries only its opcode; the operands
stand in ARG0-ARG3, so a constructor of `Instr` has no argument. -/

namespace Sys2Proof

/-- The commands, one per row of the opcode table (30_encoding.md R202). -/
inductive Instr where
  /-- NOP, 46_engine.md R587. -/
  | nop
  /-- OSC_CREATE, 41_oscillator.md R305. -/
  | oscCreate
  /-- OSC_SET_FREQ, 41_oscillator.md R306. -/
  | oscSetFreq
  /-- OSC_SET_AMP, 41_oscillator.md R307. -/
  | oscSetAmp
  /-- OSC_SET_WAVE, 41_oscillator.md R308. -/
  | oscSetWave
  /-- POLY_CREATE, 41_oscillator.md R311. -/
  | polyCreate
  /-- POLY_NOTE_ON, 41_oscillator.md R312. -/
  | polyNoteOn
  /-- POLY_NOTE_OFF, 41_oscillator.md R313. -/
  | polyNoteOff
  /-- POLY_SET_WAVE, 41_oscillator.md R314. -/
  | polySetWave
  /-- ENV_CREATE, 42_envelope.md R355. -/
  | envCreate
  /-- ENV_SET_ATTACK, 42_envelope.md R356. -/
  | envSetAttack
  /-- ENV_SET_DECAY, 42_envelope.md R357. -/
  | envSetDecay
  /-- ENV_SET_SUSTAIN, 42_envelope.md R358. -/
  | envSetSustain
  /-- ENV_SET_RELEASE, 42_envelope.md R359. -/
  | envSetRelease
  /-- ENV_NOTE_ON, 42_envelope.md R360. -/
  | envNoteOn
  /-- ENV_NOTE_OFF, 42_envelope.md R361. -/
  | envNoteOff
  /-- ENV_GET, 42_envelope.md R362. -/
  | envGet
  /-- EPOOL_CREATE, 42_envelope.md R364. -/
  | epoolCreate
  /-- EPOOL_NOTE_ON, 42_envelope.md R365. -/
  | epoolNoteOn
  /-- EPOOL_NOTE_OFF, 42_envelope.md R366. -/
  | epoolNoteOff
  /-- EPOOL_SET, 42_envelope.md R367. -/
  | epoolSet
  /-- EPOOL_ADVANCE, 42_envelope.md R368. -/
  | epoolAdvance
  /-- EPOOL_GET, 42_envelope.md R369. -/
  | epoolGet
  /-- DLY_CREATE, 43_effects.md R404. -/
  | dlyCreate
  /-- DLY_SET_TIME, 43_effects.md R405. -/
  | dlySetTime
  /-- DLY_SET_FEEDBACK, 43_effects.md R406. -/
  | dlySetFeedback
  /-- FLT_CREATE, 43_effects.md R409. -/
  | fltCreate
  /-- FLT_SET_MODE, 43_effects.md R410. -/
  | fltSetMode
  /-- FLT_SET_CUTOFF, 43_effects.md R411. -/
  | fltSetCutoff
  /-- FLT_SET_Q, 43_effects.md R412. -/
  | fltSetQ
  /-- REV_CREATE, 43_effects.md R415. -/
  | revCreate
  /-- REV_SET_ROOM, 43_effects.md R416. -/
  | revSetRoom
  /-- REV_SET_DECAY, 43_effects.md R417. -/
  | revSetDecay
  /-- FX_SET_DRY, 43_effects.md R418. -/
  | fxSetDry
  /-- FX_SET_WET, 43_effects.md R419. -/
  | fxSetWet
  /-- FX_SET_BYPASS, 43_effects.md R420. -/
  | fxSetBypass
  /-- FX_PROCESS, 43_effects.md R421. -/
  | fxProcess
  /-- MIX_ADD_CHANNEL, 44_channel_mixer.md R476. -/
  | mixAddChannel
  /-- MIX_REMOVE_CHANNEL, 44_channel_mixer.md R477. -/
  | mixRemoveChannel
  /-- CH_CONNECT, 44_channel_mixer.md R478. -/
  | chConnect
  /-- CH_SET_VOLUME, 44_channel_mixer.md R479. -/
  | chSetVolume
  /-- CH_SET_PAN, 44_channel_mixer.md R480. -/
  | chSetPan
  /-- CH_SET_MUTE, 44_channel_mixer.md R481. -/
  | chSetMute
  /-- MIX_SET_MASTER, 44_channel_mixer.md R482. -/
  | mixSetMaster
  /-- MIX_GENERATE, 44_channel_mixer.md R483. -/
  | mixGenerate
  /-- SRC_GENERATE, 44_channel_mixer.md R484. -/
  | srcGenerate
  /-- FIFO_WRITE, 45_buffers.md R532. -/
  | fifoWrite
  /-- FIFO_READ, 45_buffers.md R533. -/
  | fifoRead
  /-- FIFO_PEEK, 45_buffers.md R534. -/
  | fifoPeek
  /-- FIFO_METRICS, 45_buffers.md R535. -/
  | fifoMetrics
  /-- RING_WRITE, 45_buffers.md R536. -/
  | ringWrite
  /-- RING_READ, 45_buffers.md R537. -/
  | ringRead
  /-- RING_METRICS, 45_buffers.md R538. -/
  | ringMetrics
  /-- ENG_INIT, 46_engine.md R580. -/
  | engInit
  /-- ENG_START, 46_engine.md R581. -/
  | engStart
  /-- ENG_STOP, 46_engine.md R582. -/
  | engStop
  /-- ENG_GET_METRICS, 46_engine.md R584. -/
  | engGetMetrics
  /-- ENG_ADD_PROC, 46_engine.md R585. -/
  | engAddProc
  /-- ENG_REMOVE_PROC, 46_engine.md R586. -/
  | engRemoveProc
deriving DecidableEq, Repr

/-- The seven unit kinds (10_state.md R55). -/
inductive Kind where
  | osc | poly | env | epool | dly | flt | rev
deriving DecidableEq, Repr

/-- `SRC`, the kinds that are Sources (30_encoding.md R202). -/
def srcKinds : List Kind := [.osc, .poly, .env]

/-- `FX`, the kinds that are effects (30_encoding.md R202). -/
def fxKinds : List Kind := [.dly, .flt, .rev]

/-- The operand forms of 30_encoding.md R201. -/
inductive OperandForm where
  | u32
  | f32
  | handle (kinds : List Kind)
  | chanId
  /-- `code:{0..max}` -/
  | code (max : Nat)
  | flag
  | note
  | vel
deriving DecidableEq, Repr

/-- The operands a command takes, in ARG order (30_encoding.md R202). -/
def Instr.operands : Instr → List OperandForm
  | .nop => []
  | .oscCreate => []
  | .oscSetFreq => [.handle [.osc], .f32]
  | .oscSetAmp => [.handle [.osc], .f32]
  | .oscSetWave => [.handle [.osc], .code 4]
  | .polyCreate => []
  | .polyNoteOn => [.handle [.poly], .note, .vel]
  | .polyNoteOff => [.handle [.poly], .note]
  | .polySetWave => [.handle [.poly], .code 4]
  | .envCreate => []
  | .envSetAttack => [.handle [.env], .f32]
  | .envSetDecay => [.handle [.env], .f32]
  | .envSetSustain => [.handle [.env], .f32]
  | .envSetRelease => [.handle [.env], .f32]
  | .envNoteOn => [.handle [.env]]
  | .envNoteOff => [.handle [.env]]
  | .envGet => [.handle [.env]]
  | .epoolCreate => []
  | .epoolNoteOn => [.handle [.epool], .note]
  | .epoolNoteOff => [.handle [.epool], .note]
  | .epoolSet => [.handle [.epool], .code 3, .f32]
  | .epoolAdvance => [.handle [.epool], .u32]
  | .epoolGet => [.handle [.epool], .code 7]
  | .dlyCreate => []
  | .dlySetTime => [.handle [.dly], .f32]
  | .dlySetFeedback => [.handle [.dly], .f32]
  | .fltCreate => []
  | .fltSetMode => [.handle [.flt], .code 2]
  | .fltSetCutoff => [.handle [.flt], .f32]
  | .fltSetQ => [.handle [.flt], .f32]
  | .revCreate => []
  | .revSetRoom => [.handle [.rev], .f32]
  | .revSetDecay => [.handle [.rev], .f32]
  | .fxSetDry => [.handle fxKinds, .f32]
  | .fxSetWet => [.handle fxKinds, .f32]
  | .fxSetBypass => [.handle fxKinds, .flag]
  | .fxProcess => [.handle fxKinds, .u32]
  | .mixAddChannel => []
  | .mixRemoveChannel => [.chanId]
  | .chConnect => [.handle srcKinds, .chanId]
  | .chSetVolume => [.chanId, .f32, .f32, .flag]
  | .chSetPan => [.chanId, .f32, .f32, .flag]
  | .chSetMute => [.chanId, .flag]
  | .mixSetMaster => [.f32]
  | .mixGenerate => [.u32]
  | .srcGenerate => [.handle srcKinds, .u32]
  | .fifoWrite => [.u32]
  | .fifoRead => [.u32]
  | .fifoPeek => [.u32]
  | .fifoMetrics => []
  | .ringWrite => [.u32]
  | .ringRead => [.u32]
  | .ringMetrics => []
  | .engInit => [.u32, .u32, .u32]
  | .engStart => []
  | .engStop => []
  | .engGetMetrics => []
  | .engAddProc => [.handle fxKinds]
  | .engRemoveProc => [.handle fxKinds]

/-- The command-port registers (10_state.md R53). -/
inductive PortReg where
  | cmd | arg0 | arg1 | arg2 | arg3 | status | res0 | res1 | res2 | res3 | res4 | res5
  | mUnderruns | mPeak | mLatency | mCpuload | cfgSr | cfgCh | cfgBufsz | ident | version
deriving DecidableEq, Repr

/-- What the two outside agents ask of the block, one atomic step each (20_memory.md R150, 46_engine.md R594).
HOST reads or writes the bus at a byte address with a size in bytes; DEVICE asks for a block of `n` frames. -/
inductive Input where
  | busRead (addr size : Nat)
  | busWrite (addr size : Nat) (data : Word)
  | frame (n : Nat)
deriving DecidableEq, Repr

/-- How the assembly spells an operand (30_encoding.md R206). -/
inductive Operand where
  /-- `u32`, `code`, `note`, `vel` and `flag`: a decimal or hexadecimal integer. -/
  | int (n : Nat)
  /-- `f32`: a decimal number, `num / 10^scale`. -/
  | decimal (num : Int) (scale : Nat)
  /-- A handle as `kind#index`. -/
  | unit (k : Kind) (index : Nat)
  /-- A handle, or a value of WSWIN, as a hex word. -/
  | hex (w : Word)
  /-- A channel id as `ch#n`. -/
  | chan (n : Nat)
deriving DecidableEq, Repr

/-- The statements of the spec's command assembly (30_encoding.md R206). -/
inductive Stmt where
  /-- `MNEMONIC op0, op1, ...` -/
  | command (i : Instr) (operands : List Operand)
  | wswin (j : Nat) (value : Operand)
  | rswin (j : Nat)
  | rreg (r : PortReg)
  | frame (n : Nat)
deriving DecidableEq, Repr

/-- The pseudo-instructions of 30_encoding.md R207. -/
inductive Pseudo where
  | chSetVolume (id v : Operand)
  | chSetVolumeNow (id v : Operand)
  | chSetPan (id p : Operand)
  | chSetPanNow (id p : Operand)
  | chMute (id : Operand)
  | chUnmute (id : Operand)
  | fxBypass (h : Operand)
  | fxEnable (h : Operand)
  | midiOn (h note vel : Operand)
  | midiOff (h note : Operand)
deriving DecidableEq, Repr

end Sys2Proof
end

