-- ==== Sys2Proof/WellFormed.lean ====
section
/-! DEFINITION. Which terms of the syntax are well formed. A command word has no fields besides its opcode, so the only
check on an `Instr` is that its operands fit the four argument registers (10_state.md R56); the assembly statements
(30_encoding.md R206) are checked for their operand count, for what an operand's spelling can hold, and for their
sample-window index (10_state.md R61). -/

namespace Sys2Proof

/-- A command's operands fit ARG0-ARG3 (10_state.md R56). -/
def Instr.wf (i : Instr) : Bool := decide (i.operands.length ≤ 4)

/-- The check an ill-formed statement fails. -/
inductive IllFormed where
  /-- The statement gives another number of operands than its command lists (R202, R206). -/
  | operandCount
  /-- An integer, a channel id or a handle index wider than its field (R7, 10_state.md R55). -/
  | operandWidth
  /-- A SWIN index past the last word (10_state.md R61). -/
  | swinIndex
deriving DecidableEq, Repr

/-- What an operand's spelling can hold: a 32-bit integer or id, a 24-bit handle index (R206, 10_state.md R55). -/
def Operand.wf : Operand → Bool
  | .int n => decide (n < 2 ^ 32)
  | .decimal _ _ => true
  | .unit _ i => decide (i < 2 ^ 24)
  | .hex _ => true
  | .chan n => decide (n < 2 ^ 32)

/-- `none` for a well-formed statement, else the check it fails. -/
def Stmt.check : Stmt → Option IllFormed
  | .command i ops =>
    if i.wf && ops.length == i.operands.length then (if ops.all Operand.wf then none else some .operandWidth)
    else some .operandCount
  | .wswin j v => if j < Config.swinWords then (if v.wf then none else some .operandWidth) else some .swinIndex
  | .rswin j => if j < Config.swinWords then none else some .swinIndex
  | .rreg _ => none
  | .frame _ => none

/-- A well-formed statement passes every check. -/
def Stmt.wf (st : Stmt) : Bool := decide (st.check = none)

end Sys2Proof
end

