-- ==== Sys2Proof/Decode.lean ====
section
/-! DEFINITION. The command decoder (30_encoding.md R200-R205), then the encoder, and the offsets of the
port registers (10_state.md R53). -/

namespace Sys2Proof

/-! ## Byte order (20_memory.md R157): byte a+0 holds bits [7:0], byte a+3 bits [31:24] -/

/-- The four byte lanes of a word, lowest address first (R157). -/
def bytesOfWord (w : Word) : List Byte :=
  [BitVec.ofNat 8 w.toNat, BitVec.ofNat 8 (w.toNat / 2 ^ 8), BitVec.ofNat 8 (w.toNat / 2 ^ 16),
   BitVec.ofNat 8 (w.toNat / 2 ^ 24)]

/-- The word whose byte lanes, lowest address first, are given (R157). -/
def wordOfBytes (b0 b1 b2 b3 : Byte) : Word :=
  BitVec.ofNat 32 (b0.toNat + 2 ^ 8 * b1.toNat + 2 ^ 16 * b2.toNat + 2 ^ 24 * b3.toNat)

/-! ## Decoding -/

/-- Why a command word is illegal (30_encoding.md R203). -/
inductive DecodeError where
  /-- Fewer than the four bytes of a command word. -/
  | tooShort
  /-- R203 (a): CMD[31:8] is not 0. -/
  | reservedBits
  /-- R203 (b): OPC is not in the table of R202. -/
  | reservedOpcode
deriving DecidableEq, Repr

/-- The opcode map of 30_encoding.md R202. -/
def opcodeRows : List (Nat × Instr) :=
  [(0x00, .nop),
   (0x10, .oscCreate), (0x11, .oscSetFreq), (0x12, .oscSetAmp), (0x13, .oscSetWave), (0x18, .polyCreate), (0x19, .polyNoteOn), (0x1A, .polyNoteOff), (0x1B, .polySetWave),
   (0x20, .envCreate), (0x21, .envSetAttack), (0x22, .envSetDecay), (0x23, .envSetSustain), (0x24, .envSetRelease), (0x25, .envNoteOn), (0x26, .envNoteOff), (0x27, .envGet), (0x28, .epoolCreate), (0x29, .epoolNoteOn), (0x2A, .epoolNoteOff), (0x2B, .epoolSet), (0x2C, .epoolAdvance), (0x2D, .epoolGet),
   (0x30, .dlyCreate), (0x31, .dlySetTime), (0x32, .dlySetFeedback), (0x33, .fltCreate), (0x34, .fltSetMode), (0x35, .fltSetCutoff), (0x36, .fltSetQ), (0x37, .revCreate), (0x38, .revSetRoom), (0x39, .revSetDecay), (0x3A, .fxSetDry), (0x3B, .fxSetWet), (0x3C, .fxSetBypass), (0x3D, .fxProcess),
   (0x40, .mixAddChannel), (0x41, .mixRemoveChannel), (0x42, .chConnect), (0x43, .chSetVolume), (0x44, .chSetPan), (0x45, .chSetMute), (0x46, .mixSetMaster), (0x47, .mixGenerate), (0x48, .srcGenerate),
   (0x50, .fifoWrite), (0x51, .fifoRead), (0x52, .fifoPeek), (0x53, .fifoMetrics), (0x54, .ringWrite), (0x55, .ringRead), (0x56, .ringMetrics),
   (0x60, .engInit), (0x61, .engStart), (0x62, .engStop), (0x63, .engGetMetrics), (0x64, .engAddProc), (0x65, .engRemoveProc)]

/-- The decoder of 30_encoding.md R205, total on every word. -/
def decode (w : Word) : Except DecodeError Instr :=
  if w.toNat / 2 ^ 8 ≠ 0 then .error .reservedBits
  else match opcodeRows.find? (fun r => r.1 == w.toNat % 2 ^ 8) with
    | some r => .ok r.2
    | none => .error .reservedOpcode

/-- One command word off a byte stream, with the bytes after it (R205: a command is exactly one word). -/
def decodeBytes : List Byte → Except DecodeError (Instr × List Byte)
  | b0 :: b1 :: b2 :: b3 :: rest =>
    match decode (wordOfBytes b0 b1 b2 b3) with
    | .ok i => .ok (i, rest)
    | .error e => .error e
  | _ => .error .tooShort

/-- The instruction the decoder reads from an instruction whose `nbits` bits, numbered as spec/opcode_table.json numbers
them, are `w`; the bits above are 0. -/
def decodeTableWord (nbits w : Nat) : Option Instr :=
  match decodeBytes (bytesOfWord (BitVec.ofNat 32 (w % 2 ^ nbits))) with
  | .ok (i, _) => some i
  | .error _ => none

/-! ## Encoding -/

/-- OPC of a command (30_encoding.md R202). -/
def Instr.opcode : Instr → Nat
  | .nop => 0x00
  | .oscCreate => 0x10
  | .oscSetFreq => 0x11
  | .oscSetAmp => 0x12
  | .oscSetWave => 0x13
  | .polyCreate => 0x18
  | .polyNoteOn => 0x19
  | .polyNoteOff => 0x1A
  | .polySetWave => 0x1B
  | .envCreate => 0x20
  | .envSetAttack => 0x21
  | .envSetDecay => 0x22
  | .envSetSustain => 0x23
  | .envSetRelease => 0x24
  | .envNoteOn => 0x25
  | .envNoteOff => 0x26
  | .envGet => 0x27
  | .epoolCreate => 0x28
  | .epoolNoteOn => 0x29
  | .epoolNoteOff => 0x2A
  | .epoolSet => 0x2B
  | .epoolAdvance => 0x2C
  | .epoolGet => 0x2D
  | .dlyCreate => 0x30
  | .dlySetTime => 0x31
  | .dlySetFeedback => 0x32
  | .fltCreate => 0x33
  | .fltSetMode => 0x34
  | .fltSetCutoff => 0x35
  | .fltSetQ => 0x36
  | .revCreate => 0x37
  | .revSetRoom => 0x38
  | .revSetDecay => 0x39
  | .fxSetDry => 0x3A
  | .fxSetWet => 0x3B
  | .fxSetBypass => 0x3C
  | .fxProcess => 0x3D
  | .mixAddChannel => 0x40
  | .mixRemoveChannel => 0x41
  | .chConnect => 0x42
  | .chSetVolume => 0x43
  | .chSetPan => 0x44
  | .chSetMute => 0x45
  | .mixSetMaster => 0x46
  | .mixGenerate => 0x47
  | .srcGenerate => 0x48
  | .fifoWrite => 0x50
  | .fifoRead => 0x51
  | .fifoPeek => 0x52
  | .fifoMetrics => 0x53
  | .ringWrite => 0x54
  | .ringRead => 0x55
  | .ringMetrics => 0x56
  | .engInit => 0x60
  | .engStart => 0x61
  | .engStop => 0x62
  | .engGetMetrics => 0x63
  | .engAddProc => 0x64
  | .engRemoveProc => 0x65

/-- The command word of an instruction: RSV = 0, OPC in bits [7:0] (30_encoding.md R200). -/
def encode (i : Instr) : Word := BitVec.ofNat 32 i.opcode

/-! ## The register map (10_state.md R53) -/

/-- The offset of a register from CP_BASE (10_state.md R53). -/
def PortReg.offset : PortReg → Nat
  | .cmd => 0x00
  | .arg0 => 0x04
  | .arg1 => 0x08
  | .arg2 => 0x0C
  | .arg3 => 0x10
  | .status => 0x14
  | .res0 => 0x18
  | .res1 => 0x1C
  | .res2 => 0x20
  | .res3 => 0x24
  | .res4 => 0x28
  | .res5 => 0x2C
  | .mUnderruns => 0x30
  | .mPeak => 0x34
  | .mLatency => 0x38
  | .mCpuload => 0x3C
  | .cfgSr => 0x40
  | .cfgCh => 0x44
  | .cfgBufsz => 0x48
  | .ident => 0x4C
  | .version => 0x50

/-- The port register at a word offset, if it is one (10_state.md R53). -/
def portRegAt (off : Nat) : Option PortReg :=
  [PortReg.cmd, .arg0, .arg1, .arg2, .arg3, .status, .res0, .res1, .res2, .res3, .res4, .res5, .mUnderruns, .mPeak,
    .mLatency, .mCpuload, .cfgSr, .cfgCh, .cfgBufsz, .ident, .version].find? (fun r => r.offset == off)

end Sys2Proof
end

