-- ==== Sys2Proof/Machine/State.lean ====
section
/-! DEFINITION. The whole state of the block (10_state.md R50): command port, sample window, unit pools, mixer, FIFO, ring,
effect chain and engine, and beside it what the model needs to hold the outside agents' side of a step. Plain data. -/

namespace Sys2Proof.Machine

/-- The sample window's bytes by port offset, in canonical form: offsets strictly rising and no entry 0, since a byte not
listed reads 0 (10_state.md R61, R80). -/
abbrev Memory := List Host.Cell

/-- An internal sample store's slots by index, in canonical form: indices strictly rising and no entry +0.0, since every
slot is +0.0 at creation (10_state.md R74, R75). -/
abbrev Store := List (Nat × Word)

/-- One stereo frame (left, right) (00_scope.md R14). -/
abbrev Frame := Word × Word

/-! ## Codes (92_eei_decisions.md D9, 60_exceptions.md R630, 10_state.md R58) -/

inductive Wave where
  | sine | square | triangle | sawtooth | noise
deriving DecidableEq, Repr

inductive EnvState where
  | idle | attack | decay | sustain | release
deriving DecidableEq, Repr

inductive FilterMode where
  | lowpass | highpass | bandpass
deriving DecidableEq, Repr

inductive EngState where
  | uninit | stopped | running
deriving DecidableEq, Repr

/-- STATUS.ERR; codes 9-255 are never written (R630), so they have no constructor. -/
inductive ErrCode where
  | ok | illegalCmd | badArg | badHandle | poolFull | notInit | configError | deviceError | duplicate
deriving DecidableEq, Repr

/-! ## Unit records (10_state.md R63-R70) -/

/-- OSC (R63). -/
structure Osc where
  sr : Word
  freq : Word
  inc : Word
  amp : Word
  wave : Wave
  phase : Word
deriving DecidableEq, Repr

/-- One voice of a POLY (R64); `note` is `none` when no note maps to it. -/
structure Voice where
  freq : Word
  inc : Word
  amp : Word
  phase : Word
  note : Option (Fin 128)
deriving DecidableEq, Repr

/-- POLY (R64): a wave shared by eight voices. -/
structure Poly where
  sr : Word
  wave : Wave
  voice : List Voice
deriving DecidableEq, Repr

/-- ENV (R65). -/
structure Env where
  sr : Word
  attackT : Word
  decayT : Word
  releaseT : Word
  sustain : Word
  attackRate : Word
  decayRate : Word
  releaseRate : Word
  state : EnvState
  level : Word
deriving DecidableEq, Repr

/-- One member of an EPOOL (R66). -/
structure Member where
  env : Env
  note : Option (Fin 128)
deriving DecidableEq, Repr

/-- EPOOL (R66). -/
structure EPool where
  sr : Word
  member : List Member
deriving DecidableEq, Repr

/-- The common effect fields (R70). -/
structure FxMix where
  dry : Word
  wet : Word
  bypass : Bool
deriving DecidableEq, Repr

/-- A value per lane: 0 left, 1 right (43_effects.md R400). -/
structure Lanes (α : Type) where
  l : α
  r : α
deriving DecidableEq, Repr

/-- Fixed delay buffer (R75): `size` slots and the cursor `w`. -/
structure DelayBuf where
  size : Nat
  buf : Store
  w : Nat
deriving DecidableEq, Repr

/-- DLY (R67). -/
structure Dly where
  sr : Word
  time : Word
  feedback : Word
  /-- `L` -/
  len : Nat
  d : Nat
  mix : FxMix
  line : Lanes DelayBuf
deriving DecidableEq, Repr

/-- The last two inputs and outputs of a filter lane (R68). -/
structure Hist where
  x1 : Word
  x2 : Word
  y1 : Word
  y2 : Word
deriving DecidableEq, Repr

/-- Normalised biquad coefficients (R68). -/
structure Coeffs where
  b0 : Word
  b1 : Word
  b2 : Word
  a1 : Word
  a2 : Word
deriving DecidableEq, Repr

/-- FLT (R68). -/
structure Flt where
  sr : Word
  mode : FilterMode
  cutoff : Word
  q : Word
  co : Coeffs
  mix : FxMix
  hist : Lanes Hist
deriving DecidableEq, Repr

/-- A value per reverb line E1, E2, E3, T (R69). -/
structure Taps (α : Type) where
  e1 : α
  e2 : α
  e3 : α
  t : α
deriving DecidableEq, Repr

/-- REV (R69). -/
structure Rev where
  sr : Word
  room : Word
  decay : Word
  len : Taps Nat
  d : Taps Nat
  mix : FxMix
  line : Lanes (Taps DelayBuf)
deriving DecidableEq, Repr

/-! ## Mixer, buffers, chain, engine (10_state.md R71-R77) -/

/-- A handle of a Source, decoded: a channel's `src` (R72). -/
inductive SrcRef where
  | osc (i : Nat)
  | poly (i : Nat)
  | env (i : Nat)
deriving DecidableEq, Repr

/-- A handle of an effect, decoded: an entry of CHAIN (R76). -/
inductive FxRef where
  | dly (i : Nat)
  | flt (i : Nat)
  | rev (i : Nat)
deriving DecidableEq, Repr

/-- A linear ramp: current value, target, remaining samples, per-sample increment (R72, 44_channel_mixer.md R471). -/
structure Ramp where
  cur : Word
  tgt : Word
  rem : Nat
  inc : Word
deriving DecidableEq, Repr

/-- A mixer channel (R72). -/
structure Channel where
  src : Option SrcRef
  vol : Ramp
  pan : Ramp
  mute : Bool
deriving DecidableEq, Repr

/-- MIXER when present (R71); `ch` lists the channels by ascending id. -/
structure Mixer where
  nextId : Word
  master : Word
  ch : List (Word × Channel)
deriving DecidableEq, Repr

/-- FIFO when present (R73), oldest frame first. -/
structure Fifo where
  cap : Nat
  q : List Frame
  overflow : Word
  underflow : Word
deriving DecidableEq, Repr

/-- RING when present (R74). -/
structure Ring where
  slots : Nat
  buf : Store
  wpos : Nat
  rpos : Nat
  overflow : Word
  underflow : Word
deriving DecidableEq, Repr

/-- ENG (R50, R77). -/
structure Engine where
  state : EngState
  sr : Word
  ch : Word
  bufsz : Word
  underruns : Word
  peak : Word
  latency : Word
  cpuload : Word
deriving DecidableEq, Repr

/-! ## Command port (10_state.md R53-R58) -/

structure Args where
  a0 : Word
  a1 : Word
  a2 : Word
  a3 : Word
deriving DecidableEq, Repr

structure Res where
  r0 : Word
  r1 : Word
  r2 : Word
  r3 : Word
  r4 : Word
  r5 : Word
deriving DecidableEq, Repr

/-- How many draws each oracle has answered (the model's own field: the next free value of each is taken at its counter). -/
structure Draws where
  noise : Nat
  devok : Nat
  cpuload : Nat
deriving DecidableEq, Repr

/-- The block's state. The last five fields are the model's own: the platform's base address, the steps the outside agents
have asked for in their total order, the data of the last bus read, the device's output region as the last frame request
left it, and the oracles' counters. -/
structure State where
  /-- CMD: the last word written (R54). -/
  cmd : Word
  /-- ARG0-ARG3 (R56). -/
  args : Args
  /-- STATUS.ERR (R58); STATUS.ENG is read off `eng.state`. -/
  err : ErrCode
  /-- RES0-RES5 (R57). -/
  res : Res
  /-- SWIN (R61). -/
  swin : Memory
  /-- The unit pools (R55): a slot is unallocated or holds a record. -/
  osc : List (Option Osc)
  poly : List (Option Poly)
  env : List (Option Env)
  epool : List (Option EPool)
  dly : List (Option Dly)
  flt : List (Option Flt)
  rev : List (Option Rev)
  /-- MIXER, FIFO and RING: `none` is ABSENT (R71, R73, R74). -/
  mixer : Option Mixer
  fifo : Option Fifo
  ring : Option Ring
  /-- CHAIN, in registration order (R76). -/
  chain : List FxRef
  eng : Engine
  /-- CP_BASE, chosen by the platform and never changed by a step (20_memory.md R154). -/
  cpBase : Nat
  /-- The steps still to be taken, in the total order of 20_memory.md R150. -/
  inputs : List Input
  /-- The word the last bus read returned (20_memory.md R155). -/
  rdata : Word
  /-- The device's output region after the last frame request that wrote one (20_memory.md R156). -/
  out : List Word
  draws : Draws
deriving DecidableEq, Repr

/-! ## Stops -/

/-- The reasons for a step to stop with a fault: there are none. The block has no traps (60_exceptions.md R639): a command's
error is a code in STATUS.ERR (R633), and a bus access it does not accept is refused (R646). -/
inductive Fault where
deriving DecidableEq, Repr

/-- A step the block refuses. -/
inductive Refusal where
  /-- An instruction without a meaning: raised by no arm of `exec`. Safe. -/
  | notModelled (mnemonic : String)
  /-- A bus access whose size is not 4 bytes or whose address is not 4-byte aligned, or one outside the 128 KiB port: the
  bus returns an error response, nothing is written and no data returned (20_memory.md R155, 60_exceptions.md R646,
  93_implementation_defined.md I15). Raised by the bus step, no command raises it. Safe: the block's state is as before. -/
  | busError (addr size : Nat)
deriving DecidableEq, Repr

/-! ## Reset (10_state.md R80, 70_reset_and_hazards.md R680) -/

/-- The machine right after power-on reset. CP_BASE is 0 by DESIGN CHOICE (notes/assumptions/1.md), and the model's own
fields start empty (notes/assumptions/2.md). -/
def State.reset : State where
  cmd := 0
  args := ⟨0, 0, 0, 0⟩
  err := .ok
  res := ⟨0, 0, 0, 0, 0, 0⟩
  swin := []
  osc := List.replicate Config.nOsc none
  poly := List.replicate Config.nPoly none
  env := List.replicate Config.nEnv none
  epool := List.replicate Config.nEpool none
  dly := List.replicate Config.nDly none
  flt := List.replicate Config.nFlt none
  rev := List.replicate Config.nRev none
  mixer := none
  fifo := none
  ring := none
  chain := []
  eng := ⟨.uninit, 0, 0, 0, 0, 0, 0, 0⟩
  cpBase := 0
  inputs := []
  rdata := 0
  out := []
  draws := ⟨0, 0, 0⟩

end Sys2Proof.Machine
end

