-- ==== Sys2Proof/Machine/Flags.lean ====
section
/-! DEFINITION. The status word and the codes in it (10_state.md R58, 60_exceptions.md R630). The block has no condition
codes (R79): its flags are the STATUS fields here, the effects' bypass bits and the channels' mute bits. -/

namespace Sys2Proof.Machine

/-- The number of an error code (60_exceptions.md R630). -/
def errNumber : ErrCode → Nat
  | .ok => 0
  | .illegalCmd => 1
  | .badArg => 2
  | .badHandle => 3
  | .poolFull => 4
  | .notInit => 5
  | .configError => 6
  | .deviceError => 7
  | .duplicate => 8

/-- STATUS.ENG (10_state.md R58): code 3 never occurs. -/
def engNumber : EngState → Nat
  | .uninit => 0
  | .stopped => 1
  | .running => 2

/-- STATUS: [7:0] ERR, [9:8] ENG, [31:10] zero (10_state.md R58). -/
def statusWord (s : State) : Word := BitVec.ofNat 32 (engNumber s.eng.state * 2 ^ 8 + errNumber s.err)

/-- A boolean result: 1 for true, 0 for false (10_state.md R57). -/
def boolWord (b : Bool) : Word := if b then 1#32 else 0#32

/-- `sat_inc`: one more, saturating at 0xFFFFFFFF (00_scope.md R15). -/
def satInc (w : Word) : Word := if w = 0xFFFFFFFF#32 then w else w + 1#32

/-- All six result registers 0 (10_state.md R57). -/
def resZero : Res := ⟨0, 0, 0, 0, 0, 0⟩

/-- RES0 given, the rest 0 (10_state.md R57). -/
def resOne (r0 : Word) : Res := ⟨r0, 0, 0, 0, 0, 0⟩

end Sys2Proof.Machine
end

