-- ==== Sys2Proof/Machine/Ops.lean ====
section
/-! DEFINITION. The shared operations: sparse cells and the sample window over them, the unit pools and handles, channels
and effects by reference, and the end of a command (success, or an error raised). -/

namespace Sys2Proof.Machine

/-- What one step of the block answers. -/
abbrev Result := Host.Outcome State Fault Refusal

/-! ## Sparse cells: a list of (index, value) that leaves out every entry equal to the default -/

/-- The value at an index; `dflt` where no entry lists it. -/
def cellRead {α : Type} (dflt : α) : List (Nat × α) → Nat → α
  | [], _ => dflt
  | (b, v) :: t, a => if a = b then v else cellRead dflt t a

/-- The entries of a run of values from index `a` on, those equal to the default left out. -/
def cellRun {α : Type} [DecidableEq α] (dflt : α) : Nat → List α → List (Nat × α)
  | _, [] => []
  | a, v :: vs => if v = dflt then cellRun dflt (a + 1) vs else (a, v) :: cellRun dflt (a + 1) vs

/-- Write a run of values from index `a` on: what stood below it, the run, what stood above it. -/
def cellWrite {α : Type} [DecidableEq α] (dflt : α) (m : List (Nat × α)) (a : Nat) (vs : List α) : List (Nat × α) :=
  m.filter (fun p => decide (p.1 < a)) ++ cellRun dflt a vs ++ m.filter (fun p => decide (a + vs.length ≤ p.1))

/-- The canonical form between two bounds: indices strictly rising from `lo` on and below `hi`, no entry the default. -/
def cellWf {α : Type} [DecidableEq α] (dflt : α) (hi : Nat) : Nat → List (Nat × α) → Bool
  | _, [] => true
  | lo, (a, v) :: t => decide (lo ≤ a) && decide (a < hi) && !decide (v = dflt) && cellWf dflt hi (a + 1) t

/-! ## The sample window (10_state.md R61): bytes by port offset, words little-endian (20_memory.md R157) -/

/-- The canonical form of SWIN's bytes: offsets in 0x10000..0x1FFFF, rising, no entry 0. -/
def Memory.wf (m : Memory) : Bool := cellWf 0#8 Config.portBytes Config.swinBase m

/-- The byte at a port offset of the sample window; a byte not listed reads 0 (10_state.md R80). -/
def Memory.byte (m : Memory) (off : Nat) : Byte := cellRead 0#8 m off

/-- SWIN[j] (10_state.md R61). -/
def Memory.word (m : Memory) (j : Nat) : Word :=
  wordOfBytes (m.byte (Config.swinBase + 4 * j)) (m.byte (Config.swinBase + 4 * j + 1))
    (m.byte (Config.swinBase + 4 * j + 2)) (m.byte (Config.swinBase + 4 * j + 3))

/-- Write words from SWIN[j] on, in increasing word order. -/
def Memory.setWords (m : Memory) (j : Nat) (ws : List Word) : Memory :=
  cellWrite 0#8 m (Config.swinBase + 4 * j) (ws.flatMap bytesOfWord)

/-- SWIN[0..n-1]. -/
def Memory.words (m : Memory) (n : Nat) : List Word := (List.range n).map m.word

/-- Frames of SWIN: frame i is (SWIN[2i], SWIN[2i+1]) (30_encoding.md R209). -/
def Memory.frames (m : Memory) (n : Nat) : List Frame :=
  (List.range n).map (fun i => (m.word (2 * i), m.word (2 * i + 1)))

/-- A block of frames as interleaved words, left first (30_encoding.md R209, 20_memory.md R156). -/
def interleave (fs : List Frame) : List Word := fs.flatMap (fun f => [f.1, f.2])

/-! ## Internal sample stores (10_state.md R74, R75) -/

/-- The canonical form of a store of `n` slots. -/
def storeWf (n : Nat) (st : Store) : Bool := cellWf 0#32 n 0 st

/-- The slot `i`; +0.0 until written. -/
def storeGet (st : Store) (i : Nat) : Word := cellRead 0#32 st i

def storeSet (st : Store) (i : Nat) (v : Word) : Store := cellWrite 0#32 st i [v]

/-! ## Kinds, pools and handles (10_state.md R55, 20_memory.md R159) -/

/-- The kind byte of a handle (R55). -/
def kindCode : Kind → Nat
  | .osc => 1
  | .poly => 2
  | .env => 3
  | .epool => 4
  | .dly => 5
  | .flt => 6
  | .rev => 7

/-- `POOL(kind)` (R159): other kind bytes name no pool. -/
def kindOfCode : Nat → Option Kind
  | 1 => some .osc
  | 2 => some .poly
  | 3 => some .env
  | 4 => some .epool
  | 5 => some .dly
  | 6 => some .flt
  | 7 => some .rev
  | _ => none

/-- The number of slots of a kind's pool (R55). -/
def poolSize : Kind → Nat
  | .osc => Config.nOsc
  | .poly => Config.nPoly
  | .env => Config.nEnv
  | .epool => Config.nEpool
  | .dly => Config.nDly
  | .flt => Config.nFlt
  | .rev => Config.nRev

/-- `kind[31:24] ‖ index[23:0]` (R55). -/
def handleWord (k : Kind) (i : Nat) : Word := BitVec.ofNat 32 (kindCode k * 2 ^ 24 + i)

/-- The record in a slot, if the slot exists and is allocated. -/
def poolGet {α : Type} (p : List (Option α)) (i : Nat) : Option α := (p[i]?).join

/-- Store a record in a slot. -/
def poolSet {α : Type} (p : List (Option α)) (i : Nat) (u : α) : List (Option α) := p.set i (some u)

/-- The lowest unallocated slot (R55). -/
def freeSlot {α : Type} : List (Option α) → Option Nat
  | [] => none
  | none :: _ => some 0
  | some _ :: t => (freeSlot t).map (· + 1)

/-- Whether a slot of a kind's pool is allocated (R55). -/
def allocated (s : State) (k : Kind) (i : Nat) : Bool :=
  match k with
  | .osc => (poolGet s.osc i).isSome
  | .poly => (poolGet s.poly i).isSome
  | .env => (poolGet s.env i).isSome
  | .epool => (poolGet s.epool i).isSome
  | .dly => (poolGet s.dly i).isSome
  | .flt => (poolGet s.flt i).isSome
  | .rev => (poolGet s.rev i).isSome

/-- `DECODE(h, kinds)` (20_memory.md R159): the kind and index of a handle that is valid and of an accepted kind. -/
def decodeHandle (s : State) (h : Word) (accepted : List Kind) : Except ErrCode (Kind × Nat) :=
  match kindOfCode (h.toNat / 2 ^ 24) with
  | none => .error .badHandle
  | some k =>
    if poolSize k ≤ h.toNat % 2 ^ 24 ∨ allocated s k (h.toNat % 2 ^ 24) = false then .error .badHandle
    else if k ∈ accepted then .ok (k, h.toNat % 2 ^ 24)
    else .error .badHandle

/-- The unit a handle names, with its index, given the pool of the one kind the command accepts. -/
def unitOf {α : Type} (s : State) (k : Kind) (pool : List (Option α)) (h : Word) : Except ErrCode (Nat × α) :=
  match decodeHandle s h [k] with
  | .error e => .error e
  | .ok (_, i) =>
    match poolGet pool i with
    | some u => .ok (i, u)
    | none => .error .badHandle

/-- A handle of a Source (kinds SRC). -/
def srcOf (s : State) (h : Word) : Except ErrCode SrcRef :=
  match decodeHandle s h srcKinds with
  | .ok (.osc, i) => .ok (.osc i)
  | .ok (.poly, i) => .ok (.poly i)
  | .ok (.env, i) => .ok (.env i)
  | .ok _ => .error .badHandle
  | .error e => .error e

/-- A handle of an effect (kinds FX). -/
def fxOf (s : State) (h : Word) : Except ErrCode FxRef :=
  match decodeHandle s h fxKinds with
  | .ok (.dly, i) => .ok (.dly i)
  | .ok (.flt, i) => .ok (.flt i)
  | .ok (.rev, i) => .ok (.rev i)
  | .ok _ => .error .badHandle
  | .error e => .error e

/-! ## Named updates of the state -/

def State.setOsc (s : State) (i : Nat) (u : Osc) : State := { s with osc := poolSet s.osc i u }
def State.setPoly (s : State) (i : Nat) (u : Poly) : State := { s with poly := poolSet s.poly i u }
def State.setEnv (s : State) (i : Nat) (u : Env) : State := { s with env := poolSet s.env i u }
def State.setEpool (s : State) (i : Nat) (u : EPool) : State := { s with epool := poolSet s.epool i u }
def State.setDly (s : State) (i : Nat) (u : Dly) : State := { s with dly := poolSet s.dly i u }
def State.setFlt (s : State) (i : Nat) (u : Flt) : State := { s with flt := poolSet s.flt i u }
def State.setRev (s : State) (i : Nat) (u : Rev) : State := { s with rev := poolSet s.rev i u }
def State.setMixer (s : State) (m : Mixer) : State := { s with mixer := some m }
def State.setFifo (s : State) (f : Fifo) : State := { s with fifo := some f }
def State.setRing (s : State) (r : Ring) : State := { s with ring := some r }
def State.setChain (s : State) (c : List FxRef) : State := { s with chain := c }
def State.setEng (s : State) (e : Engine) : State := { s with eng := e }
def State.setSwin (s : State) (m : Memory) : State := { s with swin := m }

/-! ## The end of a command (10_state.md R57, 60_exceptions.md R633) -/

/-- A command that completes: STATUS.ERR = OK and all six result registers written (R57). -/
def State.succeed (s : State) (r : Res) : State := { s with err := .ok, res := r }

/-- `raise`: STATUS.ERR holds the code, RES1..RES5 are 0 and RES0 is 0 or, for a failed create, the null result; nothing
else changes (60_exceptions.md R633). The block has no trap: this is all an error does (R639). -/
def State.raise (s : State) (e : ErrCode) (r0 : Word) : State := { s with err := e, res := resOne r0 }

/-- The outcome of a command run from `s`: its new state and results, or the code it raised, with RES0 = `r0`. -/
def finish (s : State) (r0 : Word) : Except ErrCode (State × Res) → Result
  | .ok (t, r) => .next (t.succeed r)
  | .error e => .next (s.raise e r0)

/-! ## Checks on the engine and the mixer (60_exceptions.md R632, step 2 and 3) -/

/-- NOT_INIT while the engine is UNINIT. -/
def needInit (s : State) : Except ErrCode Unit := if s.eng.state = .uninit then .error .notInit else .ok ()

/-- NOT_INIT while MIXER is ABSENT. -/
def needMixer (s : State) : Except ErrCode Mixer :=
  match s.mixer with
  | none => .error .notInit
  | some m => .ok m

/-- NOT_INIT while FIFO is ABSENT. -/
def needFifo (s : State) : Except ErrCode Fifo :=
  match s.fifo with
  | none => .error .notInit
  | some f => .ok f

/-- NOT_INIT while RING is ABSENT. -/
def needRing (s : State) : Except ErrCode Ring :=
  match s.ring with
  | none => .error .notInit
  | some r => .ok r

/-- The lowest unallocated slot of a pool, POOL_FULL where there is none (46_engine.md R588). -/
def needSlot {α : Type} (p : List (Option α)) : Except ErrCode Nat :=
  match freeSlot p with
  | none => .error .poolFull
  | some k => .ok k

/-! ## Channels (10_state.md R71, R72) -/

/-- `MIXER.ch[id]`, if the id is a key. -/
def findChannel : List (Word × Channel) → Word → Option Channel
  | [], _ => none
  | (k, c) :: t, id => if k = id then some c else findChannel t id

/-- BAD_HANDLE for an id that is no key of MIXER.ch (20_memory.md R159). -/
def needChannel (m : Mixer) (id : Word) : Except ErrCode Channel :=
  match findChannel m.ch id with
  | none => .error .badHandle
  | some c => .ok c

/-- `MIXER.ch[id] <- c` for a key `id`. -/
def Mixer.setChannel (m : Mixer) (id : Word) (c : Channel) : Mixer :=
  { m with ch := m.ch.map (fun p => if p.1 = id then (id, c) else p) }

/-! ## Draws (00_scope.md R13) -/

/-- One NOISE draw: any binary32 v with -1 ≤ v ≤ 1, and no other. -/
def noiseDraw (k : Nat) : Word :=
  if B32.le 0xBF800000#32 (Config.noise k) && B32.le (Config.noise k) B32.one then Config.noise k else B32.zero

/-- One CPULOAD draw: any binary32 v ≥ +0.0 that is not NaN, and no other. -/
def cpuLoadDraw (k : Nat) : Word := if B32.le B32.zero (Config.cpuLoad k) then Config.cpuLoad k else B32.zero

end Sys2Proof.Machine
end

