-- ==== Sys2Proof/Machine/Operands.lean ====
section
/-! DEFINITION. The operand forms and their checks (30_encoding.md R201, 60_exceptions.md R631). An ARG register is a word;
each form reads it one way and raises BAD_ARG outside its set. `h:K` is `decodeHandle` and `id` is `needChannel` of Ops. -/

namespace Sys2Proof.Machine

/-- `f32`: NaN, quiet or signalling, gives BAD_ARG; every other value is accepted as written. -/
def argF (w : Word) : Except ErrCode Word := if B32.isNaN w then .error .badArg else .ok w

/-- `u32` count: above BUFSZ_MAX gives BAD_ARG. -/
def argCount (w : Word) : Except ErrCode Nat := if Config.bufszMax < w.toNat then .error .badArg else .ok w.toNat

/-- `flag`: bit 0; nonzero bits [31:1] give BAD_ARG. -/
def argFlag (w : Word) : Except ErrCode Bool := if w.toNat / 2 ≠ 0 then .error .badArg else .ok (w.toNat % 2 == 1)

/-- `note`: 0..127, else BAD_ARG. -/
def argNote (w : Word) : Except ErrCode (Fin 128) := if h : w.toNat < 128 then .ok ⟨w.toNat, h⟩ else .error .badArg

/-- `code:{0..max}` of a selector or index, else BAD_ARG. -/
def argIndex (max : Nat) (w : Word) : Except ErrCode Nat := if max < w.toNat then .error .badArg else .ok w.toNat

/-- `vel`: clamped to 0..127, never fails. -/
def argVel (w : Word) : Nat := min w.toNat Config.velocityMax

/-- Waveform codes (92_eei_decisions.md D9). -/
def argWave (w : Word) : Except ErrCode Wave :=
  match w.toNat with
  | 0 => .ok .sine
  | 1 => .ok .square
  | 2 => .ok .triangle
  | 3 => .ok .sawtooth
  | 4 => .ok .noise
  | _ => .error .badArg

/-- Filter mode codes (92_eei_decisions.md D9). -/
def argMode (w : Word) : Except ErrCode FilterMode :=
  match w.toNat with
  | 0 => .ok .lowpass
  | 1 => .ok .highpass
  | 2 => .ok .bandpass
  | _ => .error .badArg

/-- Envelope state codes (92_eei_decisions.md D9). -/
def envStateWord : EnvState → Word
  | .idle => 0#32
  | .attack => 1#32
  | .decay => 2#32
  | .sustain => 3#32
  | .release => 4#32

/-- A member's note as EPOOL_GET shows it: the null result when unmapped (42_envelope.md R369). -/
def noteWord : Option (Fin 128) → Word
  | none => Config.nullResult
  | some n => BitVec.ofNat 32 n.val

end Sys2Proof.Machine
end

