-- ==== Sys2Proof/Machine/Oscillator.lean ====
section
/-! DEFINITION. The oscillator and the polyphonic oscillator (41_oscillator.md): wavetables, one sample, their commands. -/

namespace Sys2Proof.Machine

/-! ## Wavetables and one table read -/

/-- Entry i of a wavetable, 0 ≤ i < 4096 (R300). Noise has no table: its arm is never read (`oscValue`). -/
def tableEntry (w : Wave) (i : Nat) : Word :=
  match w with
  | .sine => Elem.sineEntry i
  | .square => if i < 2048 then 0x3F800000#32 else 0xBF800000#32
  | .triangle =>
    if i ≤ 1024 then B32.ofRatio i 1024
    else if i ≤ 3072 then B32.ofRatio (2048 - (i : Int)) 1024
    else B32.ofRatio ((i : Int) - 4096) 1024
  | .sawtooth => B32.ofRatio ((i : Int) - 2048) 2048
  | .noise => B32.zero

/-- `INC(f, sr) = (TWO_PI · f) / f32(sr)` (R301). -/
def phaseInc (f sr : Word) : Word := B32.div (B32.mul Config.twoPi f) (B32.ofNat sr.toNat)

/-- The table position of a phase: `idx = (p / TWO_PI) · 4096.0` (R302). -/
def tableIdx (p : Word) : Word := B32.mul (B32.div p Config.twoPi) 0x45800000#32

/-- The interpolation between two adjacent entries at the fraction `fr` (R302). -/
def interpolate (t0 t1 fr : Word) : Word := B32.add t0 (B32.mul fr (B32.sub t1 t0))

/-- `TREAD(T, p)`: linear interpolation between adjacent entries; entry 4095's neighbour is entry 0 (R302). -/
def tableRead (w : Wave) (p : Word) : Word :=
  interpolate (tableEntry w (B32.floor (tableIdx p) % 4096).toNat)
    (tableEntry w (((B32.floor (tableIdx p) % 4096).toNat + 1) % 4096))
    (B32.sub (tableIdx p) (B32.ofInt (B32.floor (tableIdx p))))

/-- The waveform's value at a phase, with the NOISE draw of counter `k` for Noise (R303). -/
def oscValue (w : Wave) (p : Word) (k : Nat) : Word :=
  match w with
  | .noise => noiseDraw k
  | w => tableRead w p

/-- The NOISE counter after a sample of a waveform: one draw per Noise sample (R303). -/
def noiseNext (w : Wave) (k : Nat) : Nat :=
  match w with
  | .noise => k + 1
  | _ => k

/-- The phase after a sample: `fmod(phase + inc, TWO_PI)`, for every waveform (R303). -/
def phaseNext (p inc : Word) : Word := B32.fmod (B32.add p inc) Config.twoPi

/-! ## One sample, n samples: oscillator -/

/-- `OSC_STEP(u)` (R303): the sample, the unit after it and the NOISE counter after it. -/
def oscStep (u : Osc) (k : Nat) : Word × Osc × Nat :=
  (B32.mul u.amp (oscValue u.wave u.phase k), { u with phase := phaseNext u.phase u.inc }, noiseNext u.wave k)

/-- `OSC_GEN(u, n)` (R304). -/
def oscGen : Nat → Osc → Nat → List Word × Osc × Nat
  | 0, u, k => ([], u, k)
  | n + 1, u, k =>
    let (x, u1, k1) := oscStep u k
    let (xs, u2, k2) := oscGen n u1 k1
    (x :: xs, u2, k2)

/-! ## One sample, n samples: polyphonic oscillator -/

/-- The mapped voices of a POLY in ascending order, each stepped once with the POLY's wave and added to the sum so far
(R310). Answers the sum, the voices after it and the NOISE counter after it. -/
def voicesStep (w : Wave) : List Voice → Word → Nat → Word × List Voice × Nat
  | [], acc, k => (acc, [], k)
  | v :: vs, acc, k =>
    match v.note with
    | none =>
      let (a, vs1, k1) := voicesStep w vs acc k
      (a, v :: vs1, k1)
    | some _ =>
      let (a, vs1, k1) := voicesStep w vs (B32.add acc (B32.mul v.amp (oscValue w v.phase k))) (noiseNext w k)
      (a, { v with phase := phaseNext v.phase v.inc } :: vs1, k1)

/-- The number of mapped voices, |A| (R310). -/
def mappedCount (vs : List Voice) : Nat := (vs.filter (fun v => v.note.isSome)).length

/-- `POLY_STEP(u)` (R310). -/
def polyStep (u : Poly) (k : Nat) : Word × Poly × Nat :=
  if mappedCount u.voice = 0 then (B32.zero, u, k)
  else
    let (a, vs, k1) := voicesStep u.wave u.voice B32.zero k
    (B32.div a (B32.ofNat (mappedCount u.voice)), { u with voice := vs }, k1)

/-- `POLY_GEN(u, n)` (R310). -/
def polyGen : Nat → Poly → Nat → List Word × Poly × Nat
  | 0, u, k => ([], u, k)
  | n + 1, u, k =>
    let (x, u1, k1) := polyStep u k
    let (xs, u2, k2) := polyGen n u1 k1
    (x :: xs, u2, k2)

/-! ## Notes and voices -/

/-- `MIDIF(note) = 440.0 · exp2_32(f32(note - 69) / 12.0)` (R309). -/
def midiFreq (note : Nat) : Word :=
  B32.mul Config.midiRefFreq
    (Elem.exp2_32 (B32.div (B32.ofInt ((note : Int) - Config.midiRefNote)) Config.notesPerOctave))

/-- The first index at which a note map holds the entry `n` (R312, 42_envelope.md R363). -/
def noteIndex (n : Option (Fin 128)) : List (Option (Fin 128)) → Option Nat
  | [] => none
  | m :: t => if m = n then some 0 else (noteIndex n t).map (· + 1)

/-- The slot a note takes: its own, else the lowest free one, else slot 0 (R312, 42_envelope.md R363). -/
def noteSlot (note : Fin 128) (notes : List (Option (Fin 128))) : Nat :=
  match noteIndex (some note) notes with
  | some k => k
  | none =>
    match noteIndex none notes with
    | some k => k
    | none => Config.stealSlot

/-- A voice taken by a note: frequency through the set_frequency clamp, amplitude from the velocity, phase kept (R312). -/
def voiceOn (sr : Word) (note : Fin 128) (vel : Nat) (v : Voice) : Voice :=
  { v with
    note := some note
    freq := B32.clamp (midiFreq note.val) Config.fMin Config.fMax
    inc := phaseInc (B32.clamp (midiFreq note.val) Config.fMin Config.fMax) sr
    amp := B32.div (B32.ofNat vel) Config.velocityScale }

/-! ## Creation values (10_state.md R63, R64) -/

def newOsc (sr : Word) : Osc :=
  { sr := sr, freq := Config.defFreq, inc := phaseInc Config.defFreq sr, amp := B32.one, wave := .sine, phase := B32.zero }

def newVoice (sr : Word) : Voice :=
  { freq := Config.defFreq, inc := phaseInc Config.defFreq sr, amp := B32.one, phase := B32.zero, note := none }

def newPoly (sr : Word) : Poly :=
  { sr := sr, wave := .sine, voice := List.replicate Config.polyVoices (newVoice sr) }

/-! ## Oscillator commands -/

/-- OSC_CREATE (R305, 46_engine.md R588). -/
def execOscCreate (s : State) : Result :=
  finish s Config.nullResult do
    needInit s
    let k ← needSlot s.osc
    pure (s.setOsc k (newOsc s.eng.sr), resOne (handleWord .osc k))

/-- OSC_SET_FREQ (R306). -/
def execOscSetFreq (s : State) : Result :=
  finish s 0 do
    let (k, u) ← unitOf s .osc s.osc s.args.a0
    let f ← argF s.args.a1
    pure (s.setOsc k { u with
      freq := B32.clamp f Config.fMin Config.fMax
      inc := phaseInc (B32.clamp f Config.fMin Config.fMax) u.sr }, resZero)

/-- OSC_SET_AMP (R307). -/
def execOscSetAmp (s : State) : Result :=
  finish s 0 do
    let (k, u) ← unitOf s .osc s.osc s.args.a0
    let a ← argF s.args.a1
    pure (s.setOsc k { u with amp := B32.clamp a B32.zero B32.one }, resZero)

/-- OSC_SET_WAVE (R308). -/
def execOscSetWave (s : State) : Result :=
  finish s 0 do
    let (k, u) ← unitOf s .osc s.osc s.args.a0
    let w ← argWave s.args.a1
    pure (s.setOsc k { u with wave := w }, resZero)

/-- POLY_CREATE (R311, 46_engine.md R588). -/
def execPolyCreate (s : State) : Result :=
  finish s Config.nullResult do
    needInit s
    let k ← needSlot s.poly
    pure (s.setPoly k (newPoly s.eng.sr), resOne (handleWord .poly k))

/-- POLY_NOTE_ON (R312). -/
def execPolyNoteOn (s : State) : Result :=
  finish s 0 do
    let (k, u) ← unitOf s .poly s.poly s.args.a0
    let note ← argNote s.args.a1
    let j := noteSlot note (u.voice.map (·.note))
    pure (s.setPoly k { u with voice := u.voice.modify j (voiceOn u.sr note (argVel s.args.a2)) },
      resOne (BitVec.ofNat 32 j))

/-- POLY_NOTE_OFF (R313). -/
def execPolyNoteOff (s : State) : Result :=
  finish s 0 do
    let (k, u) ← unitOf s .poly s.poly s.args.a0
    let note ← argNote s.args.a1
    match noteIndex (some note) (u.voice.map (·.note)) with
    | some j => pure (s.setPoly k { u with voice := u.voice.modify j (fun v => { v with note := none }) },
        resOne (boolWord true))
    | none => pure (s, resOne (boolWord false))

/-- POLY_SET_WAVE (R314). -/
def execPolySetWave (s : State) : Result :=
  finish s 0 do
    let (k, u) ← unitOf s .poly s.poly s.args.a0
    let w ← argWave s.args.a1
    pure (s.setPoly k { u with wave := w }, resZero)

end Sys2Proof.Machine
end

