-- ==== Sys2Proof/Machine/Envelope.lean ====
section
/-! DEFINITION. The ADSR envelope and the envelope pool (42_envelope.md): rates, one sample, their commands. -/

namespace Sys2Proof.Machine

/-! ## Rates and one sample -/

/-- The three rates, each operation rounded in the order written (R350). -/
def withRates (e : Env) : Env :=
  { e with
    attackRate := B32.div B32.one (B32.mul e.attackT (B32.ofNat e.sr.toNat))
    decayRate := B32.div (B32.sub B32.one e.sustain) (B32.mul e.decayT (B32.ofNat e.sr.toNat))
    releaseRate := B32.div B32.one (B32.mul e.releaseT (B32.ofNat e.sr.toNat)) }

/-- The Attack branch, given `level + attack_rate` (R351). -/
def attackTo (e : Env) (x : Word) : Env :=
  if B32.le B32.one x then { e with level := B32.one, state := .decay } else { e with level := x }

/-- The Decay branch, given `level - decay_rate` (R351). -/
def decayTo (e : Env) (x : Word) : Env :=
  if B32.le x e.sustain then { e with level := e.sustain, state := .sustain } else { e with level := x }

/-- The Release branch, given `level - release_rate` (R351). -/
def releaseTo (e : Env) (x : Word) : Env :=
  if B32.le x B32.zero then { e with level := B32.zero, state := .idle } else { e with level := x }

/-- `ENV_STEP(e)` (R351); the sample it returns is the level after it. -/
def envStep (e : Env) : Env :=
  match e.state with
  | .idle => e
  | .attack => attackTo e (B32.add e.level e.attackRate)
  | .decay => decayTo e (B32.sub e.level e.decayRate)
  | .sustain => e
  | .release => releaseTo e (B32.sub e.level e.releaseRate)

/-- `ENV_GEN(e, n)` (R352). -/
def envGen : Nat → Env → List Word × Env
  | 0, e => ([], e)
  | n + 1, e =>
    let (xs, e2) := envGen n (envStep e)
    ((envStep e).level :: xs, e2)

/-- `repeat n times: ENV_STEP(e)` (R368). -/
def envSteps : Nat → Env → Env
  | 0, e => e
  | n + 1, e => envSteps n (envStep e)

/-- `ENV_ON(e)` (R353). -/
def envOn (e : Env) : Env :=
  { e with level := (if e.state = .idle then Config.envEpsilon else e.level), state := .attack }

/-- `ENV_OFF(e)` (R354). -/
def envOff (e : Env) : Env := { e with state := .release }

/-! ## Parameter setters, each with its clamp and the rates after it (R356-R359) -/

def envSetAttackT (t : Word) (e : Env) : Env := withRates { e with attackT := B32.clamp t Config.envTMin Config.envTMax }
def envSetDecayT (t : Word) (e : Env) : Env := withRates { e with decayT := B32.clamp t Config.envTMin Config.envTMax }
def envSetSustainL (x : Word) (e : Env) : Env := withRates { e with sustain := B32.clamp x B32.zero B32.one }
def envSetReleaseT (t : Word) (e : Env) : Env := withRates { e with releaseT := B32.clamp t Config.envTMin Config.envTMax }

/-- The setter EPOOL_SET's selector names: 0 attack, 1 decay, 2 sustain, 3 release (R367). -/
def envSetBy (sel : Nat) (x : Word) (e : Env) : Env :=
  match sel with
  | 0 => envSetAttackT x e
  | 1 => envSetDecayT x e
  | 2 => envSetSustainL x e
  | _ => envSetReleaseT x e

/-! ## Creation values (10_state.md R65, R66) -/

def newEnv (sr : Word) : Env :=
  withRates
    { sr := sr, attackT := Config.defAttack, decayT := Config.defDecay, releaseT := Config.defRelease
      sustain := Config.defSustain, attackRate := 0, decayRate := 0, releaseRate := 0, state := .idle, level := B32.zero }

def newEpool (sr : Word) : EPool :=
  { sr := sr, member := List.replicate Config.epoolSize { env := newEnv sr, note := none } }

/-! ## Envelope commands -/

/-- ENV_CREATE (R355, 46_engine.md R588). -/
def execEnvCreate (s : State) : Result :=
  finish s Config.nullResult do
    needInit s
    let k ← needSlot s.env
    pure (s.setEnv k (newEnv s.eng.sr), resOne (handleWord .env k))

/-- ENV_SET_ATTACK (R356). -/
def execEnvSetAttack (s : State) : Result :=
  finish s 0 do
    let (k, e) ← unitOf s .env s.env s.args.a0
    let t ← argF s.args.a1
    pure (s.setEnv k (envSetAttackT t e), resZero)

/-- ENV_SET_DECAY (R357). -/
def execEnvSetDecay (s : State) : Result :=
  finish s 0 do
    let (k, e) ← unitOf s .env s.env s.args.a0
    let t ← argF s.args.a1
    pure (s.setEnv k (envSetDecayT t e), resZero)

/-- ENV_SET_SUSTAIN (R358). -/
def execEnvSetSustain (s : State) : Result :=
  finish s 0 do
    let (k, e) ← unitOf s .env s.env s.args.a0
    let x ← argF s.args.a1
    pure (s.setEnv k (envSetSustainL x e), resZero)

/-- ENV_SET_RELEASE (R359). -/
def execEnvSetRelease (s : State) : Result :=
  finish s 0 do
    let (k, e) ← unitOf s .env s.env s.args.a0
    let t ← argF s.args.a1
    pure (s.setEnv k (envSetReleaseT t e), resZero)

/-- ENV_NOTE_ON (R360). -/
def execEnvNoteOn (s : State) : Result :=
  finish s 0 do
    let (k, e) ← unitOf s .env s.env s.args.a0
    pure (s.setEnv k (envOn e), resZero)

/-- ENV_NOTE_OFF (R361). -/
def execEnvNoteOff (s : State) : Result :=
  finish s 0 do
    let (k, e) ← unitOf s .env s.env s.args.a0
    pure (s.setEnv k (envOff e), resZero)

/-- ENV_GET (R362). -/
def execEnvGet (s : State) : Result :=
  finish s 0 do
    let (_, e) ← unitOf s .env s.env s.args.a0
    pure (s, { resZero with r0 := e.level, r1 := envStateWord e.state })

/-! ## Envelope pool commands -/

/-- EPOOL_CREATE (R364, 46_engine.md R588). -/
def execEpoolCreate (s : State) : Result :=
  finish s Config.nullResult do
    needInit s
    let k ← needSlot s.epool
    pure (s.setEpool k (newEpool s.eng.sr), resOne (handleWord .epool k))

/-- EPOOL_NOTE_ON (R363, R365): a stolen member gets its note_on without a note_off first. -/
def execEpoolNoteOn (s : State) : Result :=
  finish s 0 do
    let (k, p) ← unitOf s .epool s.epool s.args.a0
    let note ← argNote s.args.a1
    let j := noteSlot note (p.member.map (·.note))
    pure (s.setEpool k { p with member := p.member.modify j (fun m => { env := envOn m.env, note := some note }) },
      resOne (BitVec.ofNat 32 j))

/-- EPOOL_NOTE_OFF (R366). -/
def execEpoolNoteOff (s : State) : Result :=
  finish s 0 do
    let (k, p) ← unitOf s .epool s.epool s.args.a0
    let note ← argNote s.args.a1
    match noteIndex (some note) (p.member.map (·.note)) with
    | some j => pure (s.setEpool k { p with member := p.member.modify j (fun m => { env := envOff m.env, note := none }) },
        resOne (boolWord true))
    | none => pure (s, resOne (boolWord false))

/-- EPOOL_SET (R367): every member gets the setter. -/
def execEpoolSet (s : State) : Result :=
  finish s 0 do
    let (k, p) ← unitOf s .epool s.epool s.args.a0
    let sel ← argIndex 3 s.args.a1
    let x ← argF s.args.a2
    pure (s.setEpool k { p with member := p.member.map (fun m => { m with env := envSetBy sel x m.env }) }, resZero)

/-- EPOOL_ADVANCE (R368): every member steps n times. -/
def execEpoolAdvance (s : State) : Result :=
  finish s 0 do
    let (k, p) ← unitOf s .epool s.epool s.args.a0
    let n ← argCount s.args.a1
    pure (s.setEpool k { p with member := p.member.map (fun m => { m with env := envSteps n m.env }) }, resZero)

/-- EPOOL_GET (R369). -/
def execEpoolGet (s : State) : Result :=
  finish s 0 do
    let (_, p) ← unitOf s .epool s.epool s.args.a0
    let j ← argIndex 7 s.args.a1
    match p.member[j]? with
    | some m => pure (s, { resZero with r0 := m.env.level, r1 := envStateWord m.env.state, r2 := noteWord m.note })
    | none => .error .badArg

end Sys2Proof.Machine
end

