-- ==== Sys2Proof/Machine/Effects.lean ====
section
/-! DEFINITION. The effects (43_effects.md): the fixed delay buffer they use (45_buffers.md R530, R531), one stereo frame
through a delay, a filter or a reverb, the process contract, and their commands. -/

namespace Sys2Proof.Machine

/-! ## Fixed delay buffer (45_buffers.md R530, R531) -/

/-- A buffer of D slots at creation: every slot +0.0, w = 0 (10_state.md R75). -/
def newDelayBuf (size : Nat) : DelayBuf := { size := size, buf := [], w := 0 }

/-- `clamp(dist, lo, hi)` on integers. -/
def clampNat (v lo hi : Nat) : Nat := if v < lo then lo else if hi < v then hi else v

/-- `WRITE_SAMPLE(b, v)` (R530). -/
def writeSample (b : DelayBuf) (v : Word) : DelayBuf :=
  { b with buf := storeSet b.buf b.w v, w := (b.w + 1) % b.size }

/-- `READ_DELAYED(b, dist)` (R531): the slot (w - d) mod D with d = clamp(dist, 1, D). -/
def readDelayed (b : DelayBuf) (dist : Nat) : Word :=
  storeGet b.buf ((((b.w : Int) - (clampNat dist 1 b.size : Nat)) % (b.size : Int)).toNat)

/-! ## Wet/dry mix -/

/-- `MIXWD(x, y) = u.dry · x + u.wet · y` (R401). -/
def mixWd (m : FxMix) (x y : Word) : Word := B32.add (B32.mul m.dry x) (B32.mul m.wet y)

/-! ## Delay (R402, R403) -/

/-- `L = roundHalfAway(1.0 · f32(sr))` (R402). -/
def dlyLen (sr : Word) : Nat := (B32.roundHalfAway (B32.mul Config.dlyMaxS (B32.ofNat sr.toNat))).toNat

/-- `d = clamp(roundHalfAway(time · f32(sr)), 1, L)` (R402). -/
def dlyDist (time sr : Word) (len : Nat) : Nat :=
  clampNat (B32.roundHalfAway (B32.mul time (B32.ofNat sr.toNat))).toNat 1 len

/-- `LANE_STEP(DLY u, lane, x)` on the lane's line: the output and the line after it (R403). -/
def dlyLane (u : Dly) (line : DelayBuf) (x : Word) : Word × DelayBuf :=
  (mixWd u.mix x (readDelayed line u.d),
    writeSample line (B32.add x (B32.mul u.feedback (readDelayed line u.d))))

/-- One stereo frame through a DLY: lane 0 left, lane 1 right (R400). -/
def dlyFrame (u : Dly) (f : Frame) : Frame × Dly :=
  (((dlyLane u u.line.l f.1).1, (dlyLane u u.line.r f.2).1),
    { u with line := ⟨(dlyLane u u.line.l f.1).2, (dlyLane u u.line.r f.2).2⟩ })

/-! ## Filter (R407, R408) -/

/-- The coefficients of a biquad whose unnormalised b0, b1, b2 are given, divided by a0 (R407). -/
def normalise (b0 b1 b2 cs alpha : Word) : Coeffs :=
  { b0 := B32.div b0 (B32.add B32.one alpha)
    b1 := B32.div b1 (B32.add B32.one alpha)
    b2 := B32.div b2 (B32.add B32.one alpha)
    a1 := B32.div (B32.mul 0xC0000000#32 cs) (B32.add B32.one alpha)
    a2 := B32.div (B32.sub B32.one alpha) (B32.add B32.one alpha) }

/-- The forms of R407, given cos w0 and alpha. -/
def biquadForm (mode : FilterMode) (cs alpha : Word) : Coeffs :=
  match mode with
  | .lowpass =>
    normalise (B32.div (B32.sub B32.one cs) B32.two) (B32.sub B32.one cs) (B32.div (B32.sub B32.one cs) B32.two) cs alpha
  | .highpass =>
    normalise (B32.div (B32.add B32.one cs) B32.two) (B32.neg (B32.add B32.one cs))
      (B32.div (B32.add B32.one cs) B32.two) cs alpha
  | .bandpass => normalise alpha B32.zero (B32.neg alpha) cs alpha

/-- `w0 = (TWO_PI · cutoff) / f32(sr)` (R407). -/
def filterW0 (cutoff sr : Word) : Word := B32.div (B32.mul Config.twoPi cutoff) (B32.ofNat sr.toNat)

/-- The coefficients of (mode, cutoff, q, sr) (R407). -/
def coeffs (mode : FilterMode) (cutoff q sr : Word) : Coeffs :=
  biquadForm mode (Elem.cos32 (filterW0 cutoff sr)) (B32.div (Elem.sin32 (filterW0 cutoff sr)) (B32.mul B32.two q))

/-- `(((b0·x + b1·x1) + b2·x2) - a1·y1) - a2·y2` (R408). -/
def biquad (c : Coeffs) (h : Hist) (x : Word) : Word :=
  B32.sub (B32.sub (B32.add (B32.add (B32.mul c.b0 x) (B32.mul c.b1 h.x1)) (B32.mul c.b2 h.x2)) (B32.mul c.a1 h.y1))
    (B32.mul c.a2 h.y2)

/-- `LANE_STEP(FLT u, lane, x)` on the lane's history (R408). -/
def fltLane (u : Flt) (h : Hist) (x : Word) : Word × Hist :=
  (mixWd u.mix x (biquad u.co h x), ⟨x, h.x1, biquad u.co h x, h.y1⟩)

/-- One stereo frame through a FLT (R400). -/
def fltFrame (u : Flt) (f : Frame) : Frame × Flt :=
  (((fltLane u u.hist.l f.1).1, (fltLane u u.hist.r f.2).1),
    { u with hist := ⟨(fltLane u u.hist.l f.1).2, (fltLane u u.hist.r f.2).2⟩ })

/-! ## Reverb (R413, R414) -/

/-- `len[k] = roundHalfAway((BASE[k] · 3.0) · f32(sr))` (R413). -/
def revLen (base sr : Word) : Nat :=
  (B32.roundHalfAway (B32.mul (B32.mul base 0x40400000#32) (B32.ofNat sr.toNat))).toNat

def revLens (sr : Word) : Taps Nat :=
  ⟨revLen Config.revBaseE1 sr, revLen Config.revBaseE2 sr, revLen Config.revBaseE3 sr, revLen Config.revBaseT sr⟩

/-- `sc = 1.0 + 2.0 · room` (R413). -/
def revScale (room : Word) : Word := B32.add B32.one (B32.mul B32.two room)

/-- `d[k] = clamp(roundHalfAway((BASE[k] · sc) · f32(sr)), 1, len[k])` (R413). -/
def revDist (base room sr : Word) (len : Nat) : Nat :=
  clampNat (B32.roundHalfAway (B32.mul (B32.mul base (revScale room)) (B32.ofNat sr.toNat))).toNat 1 len

def revDists (room sr : Word) (len : Taps Nat) : Taps Nat :=
  ⟨revDist Config.revBaseE1 room sr len.e1, revDist Config.revBaseE2 room sr len.e2,
   revDist Config.revBaseE3 room sr len.e3, revDist Config.revBaseT room sr len.t⟩

/-- `early = (W·e1 + W·e2) + W·e3` on a lane's lines (R414). -/
def revEarly (u : Rev) (ln : Taps DelayBuf) : Word :=
  B32.add
    (B32.add (B32.mul Config.revEarlyW (readDelayed ln.e1 u.d.e1)) (B32.mul Config.revEarlyW (readDelayed ln.e2 u.d.e2)))
    (B32.mul Config.revEarlyW (readDelayed ln.e3 u.d.e3))

/-- `u.decay · t` on a lane's lines (R414). -/
def revTail (u : Rev) (ln : Taps DelayBuf) : Word := B32.mul u.decay (readDelayed ln.t u.d.t)

/-- `LANE_STEP(REV u, lane, x)` on the lane's lines (R414). -/
def revLane (u : Rev) (ln : Taps DelayBuf) (x : Word) : Word × Taps DelayBuf :=
  (B32.add (B32.mul u.mix.dry x) (B32.mul u.mix.wet (B32.add (revEarly u ln) (revTail u ln))),
    ⟨writeSample ln.e1 x, writeSample ln.e2 x, writeSample ln.e3 x, writeSample ln.t (B32.add x (revTail u ln))⟩)

/-- One stereo frame through a REV (R400). -/
def revFrame (u : Rev) (f : Frame) : Frame × Rev :=
  (((revLane u u.line.l f.1).1, (revLane u u.line.r f.2).1),
    { u with line := ⟨(revLane u u.line.l f.1).2, (revLane u u.line.r f.2).2⟩ })

/-! ## The process contract (R400) -/

/-- A block of frames through a unit, one frame after another. -/
def runFrames {α : Type} (step : α → Frame → Frame × α) : α → List Frame → List Frame × α
  | u, [] => ([], u)
  | u, f :: fs =>
    let (g, u1) := step u f
    let (gs, u2) := runFrames step u1 fs
    (g :: gs, u2)

/-- `FX_RUN` of one unit: bypassed, the block passes bit for bit and the unit keeps its state (R400). -/
def dlyRun (u : Dly) (fs : List Frame) : List Frame × Dly := if u.mix.bypass then (fs, u) else runFrames dlyFrame u fs
def fltRun (u : Flt) (fs : List Frame) : List Frame × Flt := if u.mix.bypass then (fs, u) else runFrames fltFrame u fs
def revRun (u : Rev) (fs : List Frame) : List Frame × Rev := if u.mix.bypass then (fs, u) else runFrames revFrame u fs

/-- `FX_RUN(u, L, R)` on the unit a handle names, dispatched on its kind in one place (R400). A reference to an
unallocated slot, which no run reaches (a handle is valid when stored and units are never freed), passes the block through. -/
def fxRun (s : State) (r : FxRef) (fs : List Frame) : List Frame × State :=
  match r with
  | .dly i =>
    match poolGet s.dly i with
    | some u => ((dlyRun u fs).1, s.setDly i (dlyRun u fs).2)
    | none => (fs, s)
  | .flt i =>
    match poolGet s.flt i with
    | some u => ((fltRun u fs).1, s.setFlt i (fltRun u fs).2)
    | none => (fs, s)
  | .rev i =>
    match poolGet s.rev i with
    | some u => ((revRun u fs).1, s.setRev i (revRun u fs).2)
    | none => (fs, s)

/-- Change the common effect fields (10_state.md R70) of the unit a handle names. -/
def setFxMix (s : State) (r : FxRef) (f : FxMix → FxMix) : State :=
  match r with
  | .dly i =>
    match poolGet s.dly i with
    | some u => s.setDly i { u with mix := f u.mix }
    | none => s
  | .flt i =>
    match poolGet s.flt i with
    | some u => s.setFlt i { u with mix := f u.mix }
    | none => s
  | .rev i =>
    match poolGet s.rev i with
    | some u => s.setRev i { u with mix := f u.mix }
    | none => s

/-! ## Creation values (10_state.md R67-R70) -/

def newDly (sr : Word) : Dly :=
  { sr := sr, time := Config.defDlyTime, feedback := Config.defFeedback, len := dlyLen sr
    d := dlyDist Config.defDlyTime sr (dlyLen sr)
    mix := ⟨B32.one, Config.defDlyWet, false⟩
    line := ⟨newDelayBuf (dlyLen sr), newDelayBuf (dlyLen sr)⟩ }

def newHist : Hist := ⟨B32.zero, B32.zero, B32.zero, B32.zero⟩

def newFlt (sr : Word) : Flt :=
  { sr := sr, mode := .lowpass, cutoff := Config.defCutoff, q := Config.defQ
    co := coeffs .lowpass Config.defCutoff Config.defQ sr
    mix := ⟨B32.zero, B32.one, false⟩
    hist := ⟨newHist, newHist⟩ }

def newLines (len : Taps Nat) : Taps DelayBuf :=
  ⟨newDelayBuf len.e1, newDelayBuf len.e2, newDelayBuf len.e3, newDelayBuf len.t⟩

def newRev (sr : Word) : Rev :=
  { sr := sr, room := Config.defRoom, decay := Config.defRevDecay, len := revLens sr
    d := revDists Config.defRoom sr (revLens sr)
    mix := ⟨B32.one, Config.defRevWet, false⟩
    line := ⟨newLines (revLens sr), newLines (revLens sr)⟩ }

/-! ## Delay commands -/

/-- DLY_CREATE (R404, 46_engine.md R588). -/
def execDlyCreate (s : State) : Result :=
  finish s Config.nullResult do
    needInit s
    let k ← needSlot s.dly
    pure (s.setDly k (newDly s.eng.sr), resOne (handleWord .dly k))

/-- DLY_SET_TIME (R405): contents and cursors are kept. -/
def execDlySetTime (s : State) : Result :=
  finish s 0 do
    let (k, u) ← unitOf s .dly s.dly s.args.a0
    let t ← argF s.args.a1
    pure (s.setDly k { u with
      time := B32.clamp t B32.zero Config.dlyMaxS
      d := dlyDist (B32.clamp t B32.zero Config.dlyMaxS) u.sr u.len }, resZero)

/-- DLY_SET_FEEDBACK (R406). -/
def execDlySetFeedback (s : State) : Result :=
  finish s 0 do
    let (k, u) ← unitOf s .dly s.dly s.args.a0
    let g ← argF s.args.a1
    pure (s.setDly k { u with feedback := B32.clamp g B32.zero Config.feedbackMax }, resZero)

/-! ## Filter commands -/

/-- FLT_CREATE (R409, 46_engine.md R588). -/
def execFltCreate (s : State) : Result :=
  finish s Config.nullResult do
    needInit s
    let k ← needSlot s.flt
    pure (s.setFlt k (newFlt s.eng.sr), resOne (handleWord .flt k))

/-- FLT_SET_MODE (R410). -/
def execFltSetMode (s : State) : Result :=
  finish s 0 do
    let (k, u) ← unitOf s .flt s.flt s.args.a0
    let m ← argMode s.args.a1
    pure (s.setFlt k { u with mode := m, co := coeffs m u.cutoff u.q u.sr }, resZero)

/-- FLT_SET_CUTOFF (R411). -/
def execFltSetCutoff (s : State) : Result :=
  finish s 0 do
    let (k, u) ← unitOf s .flt s.flt s.args.a0
    let f ← argF s.args.a1
    pure (s.setFlt k { u with
      cutoff := B32.clamp f Config.fMin Config.fMax
      co := coeffs u.mode (B32.clamp f Config.fMin Config.fMax) u.q u.sr }, resZero)

/-- FLT_SET_Q (R412). -/
def execFltSetQ (s : State) : Result :=
  finish s 0 do
    let (k, u) ← unitOf s .flt s.flt s.args.a0
    let v ← argF s.args.a1
    pure (s.setFlt k { u with
      q := B32.clamp v Config.qMin Config.qMax
      co := coeffs u.mode u.cutoff (B32.clamp v Config.qMin Config.qMax) u.sr }, resZero)

/-! ## Reverb commands -/

/-- REV_CREATE (R415, 46_engine.md R588). -/
def execRevCreate (s : State) : Result :=
  finish s Config.nullResult do
    needInit s
    let k ← needSlot s.rev
    pure (s.setRev k (newRev s.eng.sr), resOne (handleWord .rev k))

/-- REV_SET_ROOM (R416). -/
def execRevSetRoom (s : State) : Result :=
  finish s 0 do
    let (k, u) ← unitOf s .rev s.rev s.args.a0
    let r ← argF s.args.a1
    pure (s.setRev k { u with
      room := B32.clamp r B32.zero B32.one
      d := revDists (B32.clamp r B32.zero B32.one) u.sr u.len }, resZero)

/-- REV_SET_DECAY (R417). -/
def execRevSetDecay (s : State) : Result :=
  finish s 0 do
    let (k, u) ← unitOf s .rev s.rev s.args.a0
    let g ← argF s.args.a1
    pure (s.setRev k { u with decay := B32.clamp g B32.zero Config.feedbackMax }, resZero)

/-! ## Commands common to every effect -/

/-- FX_SET_DRY (R418). -/
def execFxSetDry (s : State) : Result :=
  finish s 0 do
    let r ← fxOf s s.args.a0
    let v ← argF s.args.a1
    pure (setFxMix s r (fun m => { m with dry := B32.clamp v B32.zero B32.one }), resZero)

/-- FX_SET_WET (R419). -/
def execFxSetWet (s : State) : Result :=
  finish s 0 do
    let r ← fxOf s s.args.a0
    let v ← argF s.args.a1
    pure (setFxMix s r (fun m => { m with wet := B32.clamp v B32.zero B32.one }), resZero)

/-- FX_SET_BYPASS (R420). -/
def execFxSetBypass (s : State) : Result :=
  finish s 0 do
    let r ← fxOf s s.args.a0
    let b ← argFlag s.args.a1
    pure (setFxMix s r (fun m => { m with bypass := b }), resZero)

/-- FX_PROCESS (R421): frames from SWIN through the effect and back to SWIN. -/
def execFxProcess (s : State) : Result :=
  finish s 0 do
    let r ← fxOf s s.args.a0
    let n ← argCount s.args.a1
    let (gs, t) := fxRun s r (s.swin.frames n)
    pure (t.setSwin (t.swin.setWords 0 (interleave gs)), resZero)

end Sys2Proof.Machine
end

