-- ==== Sys2Proof/Machine/Mixer.lean ====
section
/-! DEFINITION. Channels, ramps, mixer and soft clip (44_channel_mixer.md), and their commands. -/

namespace Sys2Proof.Machine

/-! ## Source pull (R470) -/

/-- `SRC_GEN(h, n)`: n mono samples from the unit a handle names, which advances, dispatched on its kind in one place
(R470). A reference to an unallocated slot, which no run reaches (units are never freed), gives silence, as an absent
source does (R473). -/
def srcGen (s : State) (r : SrcRef) (n : Nat) : List Word × State :=
  match r with
  | .osc i =>
    match poolGet s.osc i with
    | some u =>
      let (xs, u1, k) := oscGen n u s.draws.noise
      (xs, { s.setOsc i u1 with draws := { s.draws with noise := k } })
    | none => (List.replicate n B32.zero, s)
  | .poly i =>
    match poolGet s.poly i with
    | some u =>
      let (xs, u1, k) := polyGen n u s.draws.noise
      (xs, { s.setPoly i u1 with draws := { s.draws with noise := k } })
    | none => (List.replicate n B32.zero, s)
  | .env i =>
    match poolGet s.env i with
    | some e => ((envGen n e).1, s.setEnv i (envGen n e).2)
    | none => (List.replicate n B32.zero, s)

/-! ## Ramps (R471, R472) -/

/-- `RAMP_ADV(r, n)` (R471): lands on the target exactly when nothing remains. A request of no samples changes nothing
(R483), not even the sign of a zero. -/
def rampAdv (r : Ramp) (n : Nat) : Ramp :=
  if r.rem = 0 ∨ n = 0 then r
  else if r.rem ≤ n then { r with cur := r.tgt, rem := 0 }
  else { r with cur := B32.add r.cur (B32.mul r.inc (B32.ofNat n)), rem := r.rem - n }

/-- The ramp duration in ms: clamped to 0..10000 when given, else 10 ms (R472). -/
def rampMs (ms : Word) (given : Bool) : Word :=
  if given then B32.clamp ms B32.zero Config.rampMsMax else Config.defaultRampMs

/-- `R = roundHalfAway((m · f32(ENG.sr)) / 1000.0)` (R472). -/
def rampLen (m sr : Word) : Nat :=
  (B32.roundHalfAway (B32.div (B32.mul m (B32.ofNat sr.toNat)) 0x447A0000#32)).toNat

/-- `RAMP_SET(r, v, ms, given)` (R472): a new set replaces any ramp in progress and starts from the current value. -/
def rampSet (r : Ramp) (v ms : Word) (given : Bool) (sr : Word) : Ramp :=
  if rampLen (rampMs ms given) sr = 0 then { cur := v, tgt := v, rem := 0, inc := B32.zero }
  else
    { cur := r.cur, tgt := v, rem := rampLen (rampMs ms given) sr
      inc := B32.div (B32.sub v r.cur) (B32.ofNat (rampLen (rampMs ms given) sr)) }

/-! ## Channel generate (R473) -/

/-- `gL = (c.vol · (1.0 - c.pan)) / 2.0` (R473). -/
def gainL (vol pan : Word) : Word := B32.div (B32.mul vol (B32.sub B32.one pan)) B32.two

/-- `gR = (c.vol · (1.0 + c.pan)) / 2.0` (R473). -/
def gainR (vol pan : Word) : Word := B32.div (B32.mul vol (B32.add B32.one pan)) B32.two

/-- A block of n frames of silence. -/
def silence (n : Nat) : List Frame := List.replicate n (B32.zero, B32.zero)

/-- The channel after its ramps advance by n samples (R473). -/
def channelAdv (c : Channel) (n : Nat) : Channel := { c with vol := rampAdv c.vol n, pan := rampAdv c.pan n }

/-- Mono samples at a channel's gains (R473). -/
def spread (c : Channel) (xs : List Word) : List Frame :=
  xs.map (fun x => (B32.mul x (gainL c.vol.cur c.pan.cur), B32.mul x (gainR c.vol.cur c.pan.cur)))

/-- `CH_GEN(c, n)` (R473): the block, the channel and the state after it. A muted channel, or one with no source, is
silent, advances no ramp and pulls nothing. -/
def chGen (s : State) (c : Channel) (n : Nat) : List Frame × Channel × State :=
  match c.src with
  | none => (silence n, c, s)
  | some r =>
    if c.mute then (silence n, c, s)
    else (spread (channelAdv c n) (srcGen s r n).1, channelAdv c n, (srcGen s r n).2)

/-! ## Soft clip and mixer generate (R474, R475) -/

/-- The curve above the threshold at magnitude `a` (R474). -/
def clipX (a : Word) : Word := B32.minF (B32.div (B32.sub a Config.scThresh) Config.scRange) B32.one
def clipCurve (x : Word) : Word := B32.sub B32.one (B32.mul (B32.sub B32.one x) (B32.sub B32.one x))
def clipMag (a : Word) : Word := B32.add Config.scThresh (B32.mul (clipCurve (clipX a)) Config.scRange)

/-- `SOFTCLIP(s)` (R474). -/
def softClip (x : Word) : Word :=
  if B32.lt Config.scThresh (B32.abs x) then B32.withSign (clipMag (B32.abs x)) x else x

/-- Sample-wise sum of two blocks (R475). -/
def addBlock (a b : List Frame) : List Frame := List.zipWith (fun p q => (B32.add p.1 q.1, B32.add p.2 q.2)) a b

/-- The channels in ascending id order, each generated and added to the sum so far (R475). -/
def mixChannels (n : Nat) : List (Word × Channel) → List Frame → State → List Frame × List (Word × Channel) × State
  | [], acc, s => (acc, [], s)
  | (id, c) :: t, acc, s =>
    let (fs, c1, s1) := chGen s c n
    let (out, t1, s2) := mixChannels n t (addBlock acc fs) s1
    (out, (id, c1) :: t1, s2)

/-- Master volume and soft clip (R475). -/
def masterClip (master : Word) (fs : List Frame) : List Frame :=
  fs.map (fun f => (softClip (B32.mul f.1 master), softClip (B32.mul f.2 master)))

/-- `MIX_GEN(n)` (R475): the block and the state after it, the mixer's channels advanced. -/
def mixGen (s : State) (m : Mixer) (n : Nat) : List Frame × State :=
  let (sum, ch, t) := mixChannels n m.ch (silence n) s
  (masterClip m.master sum, t.setMixer { m with ch := ch })

/-! ## Commands -/

/-- A new channel (10_state.md R72). -/
def newChannel : Channel :=
  { src := none, vol := ⟨B32.one, B32.one, 0, B32.zero⟩, pan := ⟨B32.zero, B32.zero, 0, B32.zero⟩, mute := false }

/-- MIX_ADD_CHANNEL (R476). -/
def execMixAddChannel (s : State) : Result :=
  finish s Config.nullResult do
    let m ← needMixer s
    if m.ch.length = Config.mixMaxChannels ∨ m.nextId = 0xFFFFFFFF#32 then .error .poolFull
    else pure (s.setMixer { m with nextId := m.nextId + 1#32, ch := m.ch ++ [(m.nextId, newChannel)] }, resOne m.nextId)

/-- MIX_REMOVE_CHANNEL (R477). -/
def execMixRemoveChannel (s : State) : Result :=
  finish s 0 do
    let m ← needMixer s
    let _ ← needChannel m s.args.a0
    pure (s.setMixer { m with ch := m.ch.filter (fun p => !decide (p.1 = s.args.a0)) }, resOne (boolWord true))

/-- CH_CONNECT (R478): ARG0 is checked before ARG1. -/
def execChConnect (s : State) : Result :=
  finish s 0 do
    let m ← needMixer s
    let r ← srcOf s s.args.a0
    let c ← needChannel m s.args.a1
    pure (s.setMixer (m.setChannel s.args.a1 { c with src := some r }), resOne (boolWord true))

/-- CH_SET_VOLUME (R479): ARG2 is read only when RAMP_GIVEN = 1. -/
def execChSetVolume (s : State) : Result :=
  finish s 0 do
    let m ← needMixer s
    let c ← needChannel m s.args.a0
    let v ← argF s.args.a1
    let g ← argFlag s.args.a3
    if g && B32.isNaN s.args.a2 then .error .badArg
    else pure (s.setMixer (m.setChannel s.args.a0
      { c with vol := rampSet c.vol (B32.clamp v B32.zero Config.volMax) s.args.a2 g s.eng.sr }), resZero)

/-- CH_SET_PAN (R480). -/
def execChSetPan (s : State) : Result :=
  finish s 0 do
    let m ← needMixer s
    let c ← needChannel m s.args.a0
    let v ← argF s.args.a1
    let g ← argFlag s.args.a3
    if g && B32.isNaN s.args.a2 then .error .badArg
    else pure (s.setMixer (m.setChannel s.args.a0
      { c with pan := rampSet c.pan (B32.clamp v Config.panMin Config.panMax) s.args.a2 g s.eng.sr }), resZero)

/-- CH_SET_MUTE (R481). -/
def execChSetMute (s : State) : Result :=
  finish s 0 do
    let m ← needMixer s
    let c ← needChannel m s.args.a0
    let b ← argFlag s.args.a1
    pure (s.setMixer (m.setChannel s.args.a0 { c with mute := b }), resZero)

/-- MIX_SET_MASTER (R482): immediate, not ramped. -/
def execMixSetMaster (s : State) : Result :=
  finish s 0 do
    let m ← needMixer s
    let v ← argF s.args.a0
    pure (s.setMixer { m with master := B32.clamp v B32.zero B32.one }, resZero)

/-- MIX_GENERATE (R483): no effect chain, no metrics. -/
def execMixGenerate (s : State) : Result :=
  finish s 0 do
    let m ← needMixer s
    let n ← argCount s.args.a0
    let (fs, t) := mixGen s m n
    pure (t.setSwin (t.swin.setWords 0 (interleave fs)), resZero)

/-- SRC_GENERATE (R484). -/
def execSrcGenerate (s : State) : Result :=
  finish s 0 do
    let r ← srcOf s s.args.a0
    let n ← argCount s.args.a1
    let (xs, t) := srcGen s r n
    pure (t.setSwin (t.swin.setWords 0 xs), resZero)

end Sys2Proof.Machine
end

