-- ==== Sys2Proof/Machine/Buffers.lean ====
section
/-! DEFINITION. The bounded FIFO and the ring buffer (45_buffers.md), reached only by the commands here through the sample
window. -/

namespace Sys2Proof.Machine

/-! ## FIFO (R532-R535) -/

/-- FIFO_WRITE's effect on the FIFO, given the n frames of SWIN (R532): the first k = min(n, cap - |q|) are stored, and a
partial write counts one overflow. -/
def fifoPush (f : Fifo) (fs : List Frame) : Fifo :=
  { f with
    q := f.q ++ fs.take (f.cap - f.q.length)
    overflow := if f.cap - f.q.length < fs.length then satInc f.overflow else f.overflow }

/-- The n frames a read or peek moves to SWIN: the oldest min(n, |q|), then silence (R533, R534). -/
def fifoFront (f : Fifo) (n : Nat) : List Frame := f.q.take n ++ silence (n - f.q.length)

/-- FIFO_READ's effect on the FIFO (R533): the frames read are removed, and a shortfall counts one underflow. -/
def fifoPop (f : Fifo) (n : Nat) : Fifo :=
  { f with
    q := f.q.drop n
    underflow := if f.q.length < n then satInc f.underflow else f.underflow }

/-- `f32(a) / f32(b)` (R535, R538). -/
def utilization (a b : Nat) : Word := B32.div (B32.ofNat a) (B32.ofNat b)

/-- FIFO_WRITE (R532). -/
def execFifoWrite (s : State) : Result :=
  finish s 0 do
    let f ← needFifo s
    let n ← argCount s.args.a0
    pure (s.setFifo (fifoPush f (s.swin.frames n)), resOne (BitVec.ofNat 32 (min n (f.cap - f.q.length))))

/-- FIFO_READ (R533). -/
def execFifoRead (s : State) : Result :=
  finish s 0 do
    let f ← needFifo s
    let n ← argCount s.args.a0
    pure ((s.setFifo (fifoPop f n)).setSwin (s.swin.setWords 0 (interleave (fifoFront f n))),
      resOne (BitVec.ofNat 32 (min n f.q.length)))

/-- FIFO_PEEK (R534): nothing is removed or counted. -/
def execFifoPeek (s : State) : Result :=
  finish s 0 do
    let f ← needFifo s
    let n ← argCount s.args.a0
    pure (s.setSwin (s.swin.setWords 0 (interleave (fifoFront f n))), resOne (BitVec.ofNat 32 (min n f.q.length)))

/-- FIFO_METRICS (R535). -/
def execFifoMetrics (s : State) : Result :=
  finish s 0 do
    let f ← needFifo s
    pure (s, { resZero with
      r0 := BitVec.ofNat 32 f.q.length
      r1 := BitVec.ofNat 32 f.cap
      r2 := f.overflow
      r3 := f.underflow
      r4 := utilization f.q.length f.cap })

/-! ## Ring (R536-R538) -/

/-- `(wpos - rpos) mod C`, the samples available (10_state.md R74). -/
def ringAvail (r : Ring) : Nat := (((r.wpos : Int) - (r.rpos : Int)) % (r.slots : Int)).toNat

/-- Store samples at wpos, which moves on modulo C (R536). -/
def ringPush (r : Ring) : List Word → Ring
  | [] => r
  | v :: vs => ringPush { r with buf := storeSet r.buf r.wpos v, wpos := (r.wpos + 1) % r.slots } vs

/-- Take k samples at rpos, which moves on modulo C; the slots keep their values (R537). -/
def ringPull : Nat → Ring → List Word × Ring
  | 0, r => ([], r)
  | k + 1, r =>
    let (vs, r2) := ringPull k { r with rpos := (r.rpos + 1) % r.slots }
    (storeGet r.buf r.rpos :: vs, r2)

/-- How many of n samples a write stores: min(n, C - 1 - avail) (R536). -/
def ringRoom (r : Ring) (n : Nat) : Nat := min n (r.slots - 1 - ringAvail r)

/-- RING_WRITE (R536): a partial write counts one overflow. -/
def execRingWrite (s : State) : Result :=
  finish s 0 do
    let r ← needRing s
    let n ← argCount s.args.a0
    let k := ringRoom r n
    let r1 := ringPush r (s.swin.words k)
    pure (s.setRing { r1 with overflow := if k < n then satInc r.overflow else r.overflow },
      resOne (BitVec.ofNat 32 k))

/-- RING_READ (R537): a shortfall is padded with +0.0 and counts one underflow. -/
def execRingRead (s : State) : Result :=
  finish s 0 do
    let r ← needRing s
    let n ← argCount s.args.a0
    let k := min n (ringAvail r)
    let (vs, r1) := ringPull k r
    pure ((s.setRing { r1 with underflow := if k < n then satInc r.underflow else r.underflow }).setSwin
        (s.swin.setWords 0 (vs ++ List.replicate (n - k) B32.zero)),
      resOne (BitVec.ofNat 32 k))

/-- RING_METRICS (R538): RES1 is the slot count C. -/
def execRingMetrics (s : State) : Result :=
  finish s 0 do
    let r ← needRing s
    pure (s, { resZero with
      r0 := BitVec.ofNat 32 (ringAvail r)
      r1 := BitVec.ofNat 32 r.slots
      r2 := r.overflow
      r3 := r.underflow
      r4 := utilization (ringAvail r) r.slots })

end Sys2Proof.Machine
end

