-- ==== Sys2Proof/Machine/Engine.lean ====
section
/-! DEFINITION. The engine commands, the effect chain and the DEVICE agent's frame request (46_engine.md). -/

namespace Sys2Proof.Machine

/-! ## Device requests (R583) -/

/-- The state after a start or stop request to DEVICE: the request took one DEVOK draw. -/
def State.deviceAsked (s : State) : State := { s with draws := { s.draws with devok := s.draws.devok + 1 } }

/-- DEVICE's answer to the request made in this state: the DEVOK draw (00_scope.md R13). -/
def deviceAnswer (s : State) : Bool := Config.devOk s.draws.devok

/-! ## Handles of effect references (10_state.md R55) -/

/-- The handle of a chain entry. -/
def fxHandle : FxRef → Word
  | .dly i => handleWord .dly i
  | .flt i => handleWord .flt i
  | .rev i => handleWord .rev i

/-- The handle of a channel's source. -/
def srcHandle : SrcRef → Word
  | .osc i => handleWord .osc i
  | .poly i => handleWord .poly i
  | .env i => handleWord .env i

/-! ## Engine commands -/

/-- NOP (R587). -/
def execNop (s : State) : Result := finish s 0 (.ok (s, resZero))

/-- The init arguments are in range (R580). -/
def initValid (sr ch bs : Word) : Bool :=
  decide (Config.srMin ≤ sr.toNat) && decide (sr.toNat ≤ Config.srMax) && decide (ch.toNat = Config.outChannels) &&
    decide (1 ≤ bs.toNat) && decide (bs.toNat ≤ Config.bufszMax)

/-- `(f32(bs) / f32(sr)) · 1000.0` (R580, R592). -/
def latencyMs (bs sr : Word) : Word := B32.mul (B32.div (B32.ofNat bs.toNat) (B32.ofNat sr.toNat)) 0x447A0000#32

/-- The mixer, FIFO and ring an init creates (10_state.md R71, R73, R74). -/
def newMixer : Mixer := { nextId := 0, master := B32.one, ch := [] }
def newFifo (bs : Word) : Fifo := { cap := Config.bufFactor * bs.toNat, q := [], overflow := 0, underflow := 0 }
def newRing (bs : Word) : Ring :=
  { slots := Config.bufFactor * bs.toNat, buf := [], wpos := 0, rpos := 0, overflow := 0, underflow := 0 }

/-- A running engine asks the device to stop, the answer ignored (R580). -/
def stopIfRunning (s : State) : State := if s.eng.state = .running then s.deviceAsked else s

/-- The engine record after an init (R580): underruns, peak and cpuload are kept. -/
def initEngine (e : Engine) (sr ch bs : Word) : Engine :=
  { e with state := .stopped, sr := sr, ch := ch, bufsz := bs, latency := latencyMs bs sr }

/-- ENG_INIT (R580). -/
def execEngInit (s : State) : Result :=
  finish s 0
    (if initValid s.args.a0 s.args.a1 s.args.a2 then
      .ok (((((stopIfRunning s).setMixer newMixer).setFifo (newFifo s.args.a2)).setRing (newRing s.args.a2)).setEng
          (initEngine s.eng s.args.a0 s.args.a1 s.args.a2),
        resOne (boolWord true))
    else .error .configError)

/-- ENG_START (R581). A refused request took its draw all the same. -/
def execEngStart (s : State) : Result :=
  match s.eng.state with
  | .uninit => .next (s.raise .notInit 0)
  | .running => .next (s.succeed (resOne (boolWord true)))
  | .stopped =>
    if deviceAnswer s then
      .next ((s.deviceAsked.setEng { s.eng with state := .running }).succeed (resOne (boolWord true)))
    else .next (s.deviceAsked.raise .deviceError 0)

/-- ENG_STOP (R582). The engine is STOPPED whatever the device answers: the one failed command that changes more than
its results (60_exceptions.md R633). -/
def execEngStop (s : State) : Result :=
  match s.eng.state with
  | .running =>
    if deviceAnswer s then
      .next ((s.deviceAsked.setEng { s.eng with state := .stopped }).succeed (resOne (boolWord true)))
    else .next ((s.deviceAsked.setEng { s.eng with state := .stopped }).raise .deviceError 0)
  | _ => .next (s.succeed (resOne (boolWord true)))

/-- ENG_GET_METRICS (R584). -/
def execEngGetMetrics (s : State) : Result :=
  finish s 0 (.ok (s, { resZero with
    r0 := s.eng.cpuload
    r1 := s.eng.underruns
    r2 := s.eng.latency
    r3 := s.eng.peak }))

/-- ENG_ADD_PROC (R585): DUPLICATE is checked before POOL_FULL. -/
def execEngAddProc (s : State) : Result :=
  finish s 0 do
    let r ← fxOf s s.args.a0
    if r ∈ s.chain then .error .duplicate
    else if s.chain.length = Config.maxChain then .error .poolFull
    else pure (s.setChain (s.chain ++ [r]), resOne (boolWord true))

/-- ENG_REMOVE_PROC (R586): the order of the rest is kept. -/
def execEngRemoveProc (s : State) : Result :=
  finish s 0 do
    let r ← fxOf s s.args.a0
    if r ∈ s.chain then pure (s.setChain (s.chain.filter (fun q => !decide (q = r))), resOne (boolWord true))
    else pure (s, resOne (boolWord false))

/-! ## The frame request (R589-R592) -/

/-- `CHAIN_RUN(L, R)`: each effect of the chain in registration order (R589). -/
def chainRun : List FxRef → List Frame → State → List Frame × State
  | [], fs, s => (fs, s)
  | r :: rs, fs, s => chainRun rs (fxRun s r fs).1 (fxRun s r fs).2

/-- No sample of a block is NaN or ±Inf (R590). -/
def allFinite (fs : List Frame) : Bool := fs.all (fun f => B32.isFinite f.1 && B32.isFinite f.2)

/-- The largest magnitude of a block (R592). -/
def blockPeak (fs : List Frame) : Word :=
  fs.foldl (fun a f => B32.maxF a (B32.maxF (B32.abs f.1) (B32.abs f.2))) B32.zero

/-- `ERROR_PATH(n)` (R591): 2n words of silence, one underrun more, peak +0.0; what the request already advanced stays. -/
def errorPath (s : State) (n : Nat) : State :=
  { s with
    out := List.replicate (2 * n) B32.zero
    eng := { s.eng with underruns := satInc s.eng.underruns, peak := B32.zero } }

/-- The request's cpu_load draw (R590). -/
def drawCpuLoad (s : State) : State :=
  { s with
    eng := { s.eng with cpuload := cpuLoadDraw s.draws.cpuload }
    draws := { s.draws with cpuload := s.draws.cpuload + 1 } }

/-- The end of a frame whose block is `fs` (R590, R591, R592). -/
def frameEnd (s : State) (fs : List Frame) (n : Nat) : State :=
  if allFinite fs then
    { s with
      out := interleave fs
      eng := { s.eng with peak := blockPeak fs, latency := latencyMs s.eng.bufsz s.eng.sr } }
  else errorPath s n

/-- The block of a frame request before its end: the mix, then the chain (R590). -/
def frameBlock (s : State) (m : Mixer) (n : Nat) : List Frame × State :=
  chainRun s.chain (mixGen s m n).1 (mixGen s m n).2

/-- `FRAME(n)` (R590). It writes neither SWIN nor STATUS nor RES. An initialised engine has a mixer; in a state without
one, which no run reaches, the request takes the error path. -/
def frameRequest (s : State) (n : Nat) : State :=
  if n = 0 then s
  else if s.eng.state = .uninit ∨ s.eng.bufsz.toNat < n then errorPath (drawCpuLoad s) n
  else
    match s.mixer with
    | none => errorPath (drawCpuLoad s) n
    | some m => frameEnd (frameBlock (drawCpuLoad s) m n).2 (frameBlock (drawCpuLoad s) m n).1 n

end Sys2Proof.Machine
end

