-- ==== Sys2Proof/Machine/Dispatch.lean ====
section
/-! DEFINITION. One arm per command (30_encoding.md R202, R205). -/

namespace Sys2Proof.Machine

def exec (i : Instr) (s : State) : Host.Outcome State Fault Refusal :=
  match i with
  | .nop => Sys2Proof.Machine.execNop s
  | .oscCreate => Sys2Proof.Machine.execOscCreate s
  | .oscSetFreq => Sys2Proof.Machine.execOscSetFreq s
  | .oscSetAmp => Sys2Proof.Machine.execOscSetAmp s
  | .oscSetWave => Sys2Proof.Machine.execOscSetWave s
  | .polyCreate => Sys2Proof.Machine.execPolyCreate s
  | .polyNoteOn => Sys2Proof.Machine.execPolyNoteOn s
  | .polyNoteOff => Sys2Proof.Machine.execPolyNoteOff s
  | .polySetWave => Sys2Proof.Machine.execPolySetWave s
  | .envCreate => Sys2Proof.Machine.execEnvCreate s
  | .envSetAttack => Sys2Proof.Machine.execEnvSetAttack s
  | .envSetDecay => Sys2Proof.Machine.execEnvSetDecay s
  | .envSetSustain => Sys2Proof.Machine.execEnvSetSustain s
  | .envSetRelease => Sys2Proof.Machine.execEnvSetRelease s
  | .envNoteOn => Sys2Proof.Machine.execEnvNoteOn s
  | .envNoteOff => Sys2Proof.Machine.execEnvNoteOff s
  | .envGet => Sys2Proof.Machine.execEnvGet s
  | .epoolCreate => Sys2Proof.Machine.execEpoolCreate s
  | .epoolNoteOn => Sys2Proof.Machine.execEpoolNoteOn s
  | .epoolNoteOff => Sys2Proof.Machine.execEpoolNoteOff s
  | .epoolSet => Sys2Proof.Machine.execEpoolSet s
  | .epoolAdvance => Sys2Proof.Machine.execEpoolAdvance s
  | .epoolGet => Sys2Proof.Machine.execEpoolGet s
  | .dlyCreate => Sys2Proof.Machine.execDlyCreate s
  | .dlySetTime => Sys2Proof.Machine.execDlySetTime s
  | .dlySetFeedback => Sys2Proof.Machine.execDlySetFeedback s
  | .fltCreate => Sys2Proof.Machine.execFltCreate s
  | .fltSetMode => Sys2Proof.Machine.execFltSetMode s
  | .fltSetCutoff => Sys2Proof.Machine.execFltSetCutoff s
  | .fltSetQ => Sys2Proof.Machine.execFltSetQ s
  | .revCreate => Sys2Proof.Machine.execRevCreate s
  | .revSetRoom => Sys2Proof.Machine.execRevSetRoom s
  | .revSetDecay => Sys2Proof.Machine.execRevSetDecay s
  | .fxSetDry => Sys2Proof.Machine.execFxSetDry s
  | .fxSetWet => Sys2Proof.Machine.execFxSetWet s
  | .fxSetBypass => Sys2Proof.Machine.execFxSetBypass s
  | .fxProcess => Sys2Proof.Machine.execFxProcess s
  | .mixAddChannel => Sys2Proof.Machine.execMixAddChannel s
  | .mixRemoveChannel => Sys2Proof.Machine.execMixRemoveChannel s
  | .chConnect => Sys2Proof.Machine.execChConnect s
  | .chSetVolume => Sys2Proof.Machine.execChSetVolume s
  | .chSetPan => Sys2Proof.Machine.execChSetPan s
  | .chSetMute => Sys2Proof.Machine.execChSetMute s
  | .mixSetMaster => Sys2Proof.Machine.execMixSetMaster s
  | .mixGenerate => Sys2Proof.Machine.execMixGenerate s
  | .srcGenerate => Sys2Proof.Machine.execSrcGenerate s
  | .fifoWrite => Sys2Proof.Machine.execFifoWrite s
  | .fifoRead => Sys2Proof.Machine.execFifoRead s
  | .fifoPeek => Sys2Proof.Machine.execFifoPeek s
  | .fifoMetrics => Sys2Proof.Machine.execFifoMetrics s
  | .ringWrite => Sys2Proof.Machine.execRingWrite s
  | .ringRead => Sys2Proof.Machine.execRingRead s
  | .ringMetrics => Sys2Proof.Machine.execRingMetrics s
  | .engInit => Sys2Proof.Machine.execEngInit s
  | .engStart => Sys2Proof.Machine.execEngStart s
  | .engStop => Sys2Proof.Machine.execEngStop s
  | .engGetMetrics => Sys2Proof.Machine.execEngGetMetrics s
  | .engAddProc => Sys2Proof.Machine.execEngAddProc s
  | .engRemoveProc => Sys2Proof.Machine.execEngRemoveProc s

end Sys2Proof.Machine
end

