-- ==== Sys2Proof/Machine/Port.lean ====
section
/-! DEFINITION. One atomic step of the block (20_memory.md R150): a host bus access to the command port or the sample
window, where a write to CMD runs the whole command, or a frame request. -/

namespace Sys2Proof.Machine

/-! ## Registers (10_state.md R53) -/

/-- What a register reads (R53, R56-R60, R62). -/
def regRead (s : State) : PortReg → Word
  | .cmd => s.cmd
  | .arg0 => s.args.a0
  | .arg1 => s.args.a1
  | .arg2 => s.args.a2
  | .arg3 => s.args.a3
  | .status => statusWord s
  | .res0 => s.res.r0
  | .res1 => s.res.r1
  | .res2 => s.res.r2
  | .res3 => s.res.r3
  | .res4 => s.res.r4
  | .res5 => s.res.r5
  | .mUnderruns => s.eng.underruns
  | .mPeak => s.eng.peak
  | .mLatency => s.eng.latency
  | .mCpuload => s.eng.cpuload
  | .cfgSr => s.eng.sr
  | .cfgCh => s.eng.ch
  | .cfgBufsz => s.eng.bufsz
  | .ident => Config.idWord
  | .version => Config.versionWord

/-- A command word written to CMD: CMD holds it, and its command runs; an illegal word raises ILLEGAL_CMD and changes
nothing else (R54, 30_encoding.md R203, R205). -/
def commandWrite (s : State) (w : Word) : Result :=
  match decode w with
  | .ok i => exec i { s with cmd := w }
  | .error _ => .next (({ s with cmd := w } : State).raise .illegalCmd 0)

/-- A word written to a register: ARG registers store it, CMD runs it, read-only registers ignore it (R53). -/
def regWrite (s : State) (r : PortReg) (w : Word) : Result :=
  match r with
  | .cmd => commandWrite s w
  | .arg0 => .next { s with args := { s.args with a0 := w } }
  | .arg1 => .next { s with args := { s.args with a1 := w } }
  | .arg2 => .next { s with args := { s.args with a2 := w } }
  | .arg3 => .next { s with args := { s.args with a3 := w } }
  | .status | .res0 | .res1 | .res2 | .res3 | .res4 | .res5 => .next s
  | .mUnderruns | .mPeak | .mLatency | .mCpuload => .next s
  | .cfgSr | .cfgCh | .cfgBufsz | .ident | .version => .next s

/-! ## The port by offset from CP_BASE (20_memory.md R154, R155) -/

/-- The word at an aligned offset of the window: a register, a SWIN word, or 0 at a reserved offset (R155). -/
def portRead (s : State) (off : Nat) : Word :=
  if Config.swinBase ≤ off then s.swin.word ((off - Config.swinBase) / 4)
  else
    match portRegAt off with
    | some r => regRead s r
    | none => 0

/-- A word written at an aligned offset of the window; a reserved offset ignores it (R155). -/
def portWrite (s : State) (off : Nat) (w : Word) : Result :=
  if Config.swinBase ≤ off then .next (s.setSwin (s.swin.setWords ((off - Config.swinBase) / 4) [w]))
  else
    match portRegAt off with
    | some r => regWrite s r w
    | none => .next s

/-- The byte lane of the window at an offset, little-endian within its word (R157). -/
def portByte (s : State) (off : Nat) : Byte := (bytesOfWord (portRead s (off / 4 * 4))).getD (off % 4) 0

/-- The byte at an offset of the output region of the last frame request, little-endian within its word (R156, R157);
none past the region's last word. -/
def outByte (s : State) (off : Nat) : Option Byte := s.out[off / 4]?.map (fun w => (bytesOfWord w).getD (off % 4) 0)

/-! ## Bus accesses by byte address -/

/-- The offset of an access the port accepts: `a = CP_BASE + 4·k`, 0 ≤ k < 32768, 4 bytes (R155). -/
def accepts (base a size : Nat) : Bool :=
  decide (base ≤ a) && decide (a < base + Config.portBytes) && size == 4 && (a - base) % 4 == 0

/-- The answer to an access the port does not accept, of a wrong size or alignment or outside the window: a bus error
(R155, 60_exceptions.md R646, 93_implementation_defined.md I15). -/
def busRefuse (a size : Nat) : Result := .refused (.busError a size)

/-- One input served (R150). A read returns its word and has no other effect (R158). -/
def serve (s : State) : Input → Result
  | .busRead a size =>
    if accepts s.cpBase a size then .next { s with rdata := portRead s (a - s.cpBase) } else busRefuse a size
  | .busWrite a size w =>
    if accepts s.cpBase a size then portWrite s (a - s.cpBase) w else busRefuse a size
  | .frame n => .next (frameRequest s n)

/-- The next step in the total order of R150: the first input is taken and served; with none asked for, nothing happens. -/
def takeInput (s : State) : Result :=
  match s.inputs with
  | [] => .next s
  | e :: rest => serve { s with inputs := rest } e

/-- A command word placed as the very next step: the host's 32-bit write of it to CMD. -/
def placeCommand (s : State) (nbits w : Nat) : State :=
  { s with inputs := .busWrite s.cpBase 4 (BitVec.ofNat 32 (w % 2 ^ nbits)) :: s.inputs }

end Sys2Proof.Machine
end

