-- ==== Sys2Proof/Machine/Step.lean ====
section
/-! DEFINITION. The step of the machine: the block fetches no instructions (10_state.md R51), so a step serves the next
input of the total order (20_memory.md R150). -/

namespace Sys2Proof.Machine

/-- One atomic step (20_memory.md R150). -/
def step (s : State) : Host.Outcome State Fault Refusal := takeInput s

/-- `s` with a command word as the very next host write to CMD, so that the next step runs exactly it. -/
def State.withFetchWord (s : State) (nbits w : Nat) : State := placeCommand s nbits w

end Sys2Proof.Machine
end

