-- ==== Sys2Proof/Machine/Assembler.lean ====
section
/-! DEFINITION. The spec's command assembly (30_encoding.md R206, R207): the bus accesses a statement assembles to. -/

namespace Sys2Proof.Machine

/-- The word an operand assembles to; a decimal goes to the nearest binary32, ties to even (R206). -/
def operandWord : Operand → Word
  | .int n => BitVec.ofNat 32 n
  | .decimal num scale => B32.ofRatio num (10 ^ scale)
  | .unit k i => handleWord k i
  | .hex w => w
  | .chan n => BitVec.ofNat 32 n

/-- One write of each operand to its ARG register, in ARG order, from ARG k on (R206). -/
def argWrites (base : Nat) : Nat → List Operand → List Input
  | _, [] => []
  | k, v :: vs => .busWrite (base + 4 + 4 * k) 4 (operandWord v) :: argWrites base (k + 1) vs

/-- The steps a statement assembles to, for a command port at `base` (R206). -/
def assemble (base : Nat) : Stmt → List Input
  | .command i ops => argWrites base 0 ops ++ [.busWrite base 4 (encode i)]
  | .wswin j v => [.busWrite (base + Config.swinBase + 4 * j) 4 (operandWord v)]
  | .rswin j => [.busRead (base + Config.swinBase + 4 * j) 4]
  | .rreg r => [.busRead (base + r.offset) 4]
  | .frame n => [.frame n]

/-- The expansion of a pseudo-instruction (R207). -/
def expand : Pseudo → Stmt
  | .chSetVolume id v => .command .chSetVolume [id, v, .decimal 0 1, .int 0]
  | .chSetVolumeNow id v => .command .chSetVolume [id, v, .decimal 0 1, .int 1]
  | .chSetPan id p => .command .chSetPan [id, p, .decimal 0 1, .int 0]
  | .chSetPanNow id p => .command .chSetPan [id, p, .decimal 0 1, .int 1]
  | .chMute id => .command .chSetMute [id, .int 1]
  | .chUnmute id => .command .chSetMute [id, .int 0]
  | .fxBypass h => .command .fxSetBypass [h, .int 1]
  | .fxEnable h => .command .fxSetBypass [h, .int 0]
  | .midiOn h note vel => .command .polyNoteOn [h, note, vel]
  | .midiOff h note => .command .polyNoteOff [h, note]

end Sys2Proof.Machine
end

