-- ==== Sys2Proof/Safety.lean ====
section
/-! DEFINITION. What counts as a safe state and a valid access, in the terms the statements use: what a handle names, the
structure every reachable state has (`Sound`) and the legal values of its fields (`Legal`), both from 10_state.md. -/

namespace Sys2Proof.Machine

/-! ## Handles (10_state.md R55, 20_memory.md R159) -/

/-- `h` is the valid handle of slot `i` of kind `k` (R55). -/
def HandleNames (s : State) (h : Word) (k : Kind) (i : Nat) : Prop :=
  h = handleWord k i ∧ i < poolSize k ∧ allocated s k i = true

/-- `h` is no valid handle of a kind in the set, so that a command accepting only these raises BAD_HANDLE (R159). -/
def BadHandle (s : State) (h : Word) (kinds : List Kind) : Prop := ∀ k ∈ kinds, ∀ i, ¬ HandleNames s h k i

/-- A source reference names an allocated slot. -/
def SrcRef.live (s : State) : SrcRef → Prop
  | .osc i => i < poolSize .osc ∧ allocated s .osc i = true
  | .poly i => i < poolSize .poly ∧ allocated s .poly i = true
  | .env i => i < poolSize .env ∧ allocated s .env i = true

/-- An effect reference names an allocated slot. -/
def FxRef.live (s : State) : FxRef → Prop
  | .dly i => i < poolSize .dly ∧ allocated s .dly i = true
  | .flt i => i < poolSize .flt ∧ allocated s .flt i = true
  | .rev i => i < poolSize .rev ∧ allocated s .rev i = true

/-! ## Structure -/

/-- No two slots of a note map hold the same note (10_state.md R64, R66). -/
def NotesDistinct (l : List (Option (Fin 128))) : Prop :=
  ∀ (i j : Nat) (n : Fin 128), l[i]? = some (some n) → l[j]? = some (some n) → i = j

/-- A sample rate an engine can have had (00_scope.md R5). -/
def RateOk (sr : Word) : Prop := Config.srMin ≤ sr.toNat ∧ sr.toNat ≤ Config.srMax

/-- A fixed delay buffer of `size` slots (10_state.md R75). -/
def DelayBufOk (size : Nat) (b : DelayBuf) : Prop :=
  b.size = size ∧ 1 ≤ size ∧ storeWf size b.buf = true ∧ b.w < size

/-- OSC (R63): the increment is the one of its frequency. -/
def OscOk (u : Osc) : Prop := RateOk u.sr ∧ u.inc = phaseInc u.freq u.sr

/-- POLY (R64). -/
def PolyOk (u : Poly) : Prop :=
  RateOk u.sr ∧ u.voice.length = Config.polyVoices ∧ NotesDistinct (u.voice.map (·.note)) ∧
    ∀ v ∈ u.voice, v.inc = phaseInc v.freq u.sr

/-- ENV (R65): the rates are those of the parameters (42_envelope.md R350). -/
def EnvOk (e : Env) : Prop := RateOk e.sr ∧ withRates e = e

/-- EPOOL (R66). -/
def EPoolOk (p : EPool) : Prop :=
  RateOk p.sr ∧ p.member.length = Config.epoolSize ∧ NotesDistinct (p.member.map (·.note)) ∧
    ∀ m ∈ p.member, EnvOk m.env ∧ m.env.sr = p.sr

/-- DLY (R67): the length and the distance are those of the parameters (43_effects.md R402). -/
def DlyOk (u : Dly) : Prop :=
  RateOk u.sr ∧ u.len = u.sr.toNat ∧ u.d = dlyDist u.time u.sr u.len ∧ 1 ≤ u.d ∧ u.d ≤ u.len ∧
    DelayBufOk u.len u.line.l ∧ DelayBufOk u.len u.line.r

/-- FLT (R68): the coefficients are those of the parameters (43_effects.md R407). -/
def FltOk (u : Flt) : Prop := RateOk u.sr ∧ u.co = coeffs u.mode u.cutoff u.q u.sr

/-- One lane's lines of a REV (R69). -/
def LinesOk (len : Taps Nat) (ln : Taps DelayBuf) : Prop :=
  DelayBufOk len.e1 ln.e1 ∧ DelayBufOk len.e2 ln.e2 ∧ DelayBufOk len.e3 ln.e3 ∧ DelayBufOk len.t ln.t

/-- REV (R69): the lengths and the distances are those of the parameters (43_effects.md R413). -/
def RevOk (u : Rev) : Prop :=
  RateOk u.sr ∧ u.len = revLens u.sr ∧ u.d = revDists u.room u.sr u.len ∧
    (1 ≤ u.d.e1 ∧ u.d.e1 ≤ u.len.e1) ∧ (1 ≤ u.d.e2 ∧ u.d.e2 ≤ u.len.e2) ∧ (1 ≤ u.d.e3 ∧ u.d.e3 ≤ u.len.e3) ∧
    (1 ≤ u.d.t ∧ u.d.t ≤ u.len.t) ∧ LinesOk u.len u.line.l ∧ LinesOk u.len u.line.r

/-- Every record of a pool satisfies `ok`, and the pool has its kind's number of slots (R55). -/
def PoolOk {α : Type} (size : Nat) (ok : α → Prop) (p : List (Option α)) : Prop :=
  p.length = size ∧ ∀ u, some u ∈ p → ok u

/-- MIXER when present (R71): at most 8 channels, ids rising and below next_id, each source live. -/
def MixerOk (s : State) (m : Mixer) : Prop :=
  m.ch.length ≤ Config.mixMaxChannels ∧ m.ch.Pairwise (fun p q => p.1.toNat < q.1.toNat) ∧
    (∀ p ∈ m.ch, p.1.toNat < m.nextId.toNat) ∧ (∀ p ∈ m.ch, ∀ r, p.2.src = some r → r.live s)

/-- FIFO when present (R73). -/
def FifoOk (bufsz : Word) (f : Fifo) : Prop := f.cap = Config.bufFactor * bufsz.toNat ∧ f.q.length ≤ f.cap

/-- RING when present (R74). -/
def RingOk (bufsz : Word) (r : Ring) : Prop :=
  r.slots = Config.bufFactor * bufsz.toNat ∧ r.wpos < r.slots ∧ r.rpos < r.slots ∧ storeWf r.slots r.buf = true

/-- The engine's configuration, and what is ABSENT before the first init (R60, R71, R73, R74, R80). -/
def EngineOk (s : State) : Prop :=
  (s.eng.state = .uninit →
    s.eng.sr = 0 ∧ s.eng.ch = 0 ∧ s.eng.bufsz = 0 ∧ s.mixer = none ∧ s.fifo = none ∧ s.ring = none) ∧
  (s.eng.state ≠ .uninit →
    initValid s.eng.sr s.eng.ch s.eng.bufsz = true ∧ s.eng.latency = latencyMs s.eng.bufsz s.eng.sr ∧
      s.mixer.isSome = true ∧ s.fifo.isSome = true ∧ s.ring.isSome = true)

/-- The structure of every reachable state (10_state.md R50-R77). -/
structure Sound (s : State) : Prop where
  swin : s.swin.wf = true
  osc : PoolOk Config.nOsc OscOk s.osc
  poly : PoolOk Config.nPoly PolyOk s.poly
  env : PoolOk Config.nEnv EnvOk s.env
  epool : PoolOk Config.nEpool EPoolOk s.epool
  dly : PoolOk Config.nDly DlyOk s.dly
  flt : PoolOk Config.nFlt FltOk s.flt
  rev : PoolOk Config.nRev RevOk s.rev
  mixer : ∀ m, s.mixer = some m → MixerOk s m
  fifo : ∀ f, s.fifo = some f → FifoOk s.eng.bufsz f
  ring : ∀ r, s.ring = some r → RingOk s.eng.bufsz r
  chain : s.chain.Nodup ∧ s.chain.length ≤ Config.maxChain ∧ ∀ r ∈ s.chain, r.live s
  engine : EngineOk s

/-! ## Legal values -/

/-- lo ≤ x ≤ hi, in the order of the binary32 values; false for a NaN. -/
def InRange (lo x hi : Word) : Prop := B32.le lo x = true ∧ B32.le x hi = true

/-- [0, TWO_PI) (R63). -/
def PhaseOk (p : Word) : Prop := B32.le B32.zero p = true ∧ B32.lt p Config.twoPi = true

def OscLegal (u : Osc) : Prop :=
  InRange Config.fMin u.freq Config.fMax ∧ InRange B32.zero u.amp B32.one ∧ PhaseOk u.phase

def VoiceLegal (v : Voice) : Prop :=
  InRange Config.fMin v.freq Config.fMax ∧ InRange B32.zero v.amp B32.one ∧ PhaseOk v.phase

def EnvLegal (e : Env) : Prop :=
  InRange Config.envTMin e.attackT Config.envTMax ∧ InRange Config.envTMin e.decayT Config.envTMax ∧
    InRange Config.envTMin e.releaseT Config.envTMax ∧ InRange B32.zero e.sustain B32.one ∧
    InRange B32.zero e.level B32.one

def MixLegal (m : FxMix) : Prop := InRange B32.zero m.dry B32.one ∧ InRange B32.zero m.wet B32.one

def DlyLegal (u : Dly) : Prop :=
  InRange B32.zero u.time Config.dlyMaxS ∧ InRange B32.zero u.feedback Config.feedbackMax ∧ MixLegal u.mix

def FltLegal (u : Flt) : Prop :=
  InRange Config.fMin u.cutoff Config.fMax ∧ InRange Config.qMin u.q Config.qMax ∧ MixLegal u.mix

def RevLegal (u : Rev) : Prop :=
  InRange B32.zero u.room B32.one ∧ InRange B32.zero u.decay Config.feedbackMax ∧ MixLegal u.mix

/-- The targets a channel's ramps run to (R72). -/
def ChannelLegal (c : Channel) : Prop :=
  InRange B32.zero c.vol.tgt Config.volMax ∧ InRange Config.panMin c.pan.tgt Config.panMax

/-- Every parameter of every unit and of the mixer lies in the range 10_state.md gives it. -/
structure Legal (s : State) : Prop where
  osc : ∀ u, some u ∈ s.osc → OscLegal u
  poly : ∀ u, some u ∈ s.poly → ∀ v ∈ u.voice, VoiceLegal v
  env : ∀ e, some e ∈ s.env → EnvLegal e
  epool : ∀ p, some p ∈ s.epool → ∀ m ∈ p.member, EnvLegal m.env
  dly : ∀ u, some u ∈ s.dly → DlyLegal u
  flt : ∀ u, some u ∈ s.flt → FltLegal u
  rev : ∀ u, some u ∈ s.rev → RevLegal u
  mixer : ∀ m, s.mixer = some m → InRange B32.zero m.master B32.one ∧ ∀ p ∈ m.ch, ChannelLegal p.2

/-! ## Checks of a command (60_exceptions.md R631, R632) -/

/-- The kind a create command makes (46_engine.md R588). -/
def createdKind : Instr → Option Kind
  | .oscCreate => some .osc
  | .polyCreate => some .poly
  | .envCreate => some .env
  | .epoolCreate => some .epool
  | .dlyCreate => some .dly
  | .fltCreate => some .flt
  | .revCreate => some .rev
  | _ => none

/-- RES0 of a failed command: the null result for a create or MIX_ADD_CHANNEL, else 0 (10_state.md R57). -/
def failResult (i : Instr) : Word := if (createdKind i).isSome ∨ i = .mixAddChannel then 0xFFFFFFFF#32 else 0#32

def mixerCommands : List Instr :=
  [.mixAddChannel, .mixRemoveChannel, .chConnect, .chSetVolume, .chSetPan, .chSetMute, .mixSetMaster, .mixGenerate]
def fifoCommands : List Instr := [.fifoWrite, .fifoRead, .fifoPeek, .fifoMetrics]
def ringCommands : List Instr := [.ringWrite, .ringRead, .ringMetrics]

/-- Check 2 of R632, as each command's rule reads it: the engine, or what its first init creates, is there. -/
def EngineReady (i : Instr) (s : State) : Prop :=
  ((createdKind i).isSome = true ∨ i = .engStart → s.eng.state ≠ .uninit) ∧
    (i ∈ mixerCommands → s.mixer ≠ none) ∧ (i ∈ fifoCommands → s.fifo ≠ none) ∧ (i ∈ ringCommands → s.ring ≠ none)

/-- A word is accepted by an operand form (R631); a `u32` operand outside ENG_INIT is a count. -/
def FormOk (s : State) (form : OperandForm) (w : Word) : Prop :=
  match form with
  | .u32 => w.toNat ≤ Config.bufszMax
  | .f32 => B32.isNaN w = false
  | .handle kinds => ¬ BadHandle s w kinds
  | .chanId => ∀ m, s.mixer = some m → ∃ c, (w, c) ∈ m.ch
  | .code max => w.toNat ≤ max
  | .flag => w.toNat < 2
  | .note => w.toNat < 128
  | .vel => True

/-- Handles and channel ids, which check 3 covers. -/
def isName : OperandForm → Bool
  | .handle _ => true
  | .chanId => true
  | _ => false

/-- The operands a command checks one by one, each with its ARG word. ARG2 of CH_SET_VOLUME and CH_SET_PAN is checked
only when RAMP_GIVEN = 1 (44_channel_mixer.md R479), and ENG_INIT's operands are checked together (R631). -/
def checkedOperands (i : Instr) (s : State) : List (OperandForm × Word) :=
  match i with
  | .engInit => []
  | .chSetVolume | .chSetPan =>
    [(.chanId, s.args.a0), (.f32, s.args.a1), (.flag, s.args.a3)] ++
      (if s.args.a3.toNat % 2 = 1 then [(.f32, s.args.a2)] else [])
  | i => i.operands.zip [s.args.a0, s.args.a1, s.args.a2, s.args.a3]

/-- Check 3 of R632. -/
def NamesOk (i : Instr) (s : State) : Prop := ∀ p ∈ checkedOperands i s, isName p.1 = true → FormOk s p.1 p.2

/-- Check 4 of R632. -/
def ValuesOk (i : Instr) (s : State) : Prop :=
  (∀ p ∈ checkedOperands i s, isName p.1 = false → FormOk s p.1 p.2) ∧
    (i = .engInit →
      8000 ≤ s.args.a0.toNat ∧ s.args.a0.toNat ≤ 192000 ∧ s.args.a1.toNat = 2 ∧ 1 ≤ s.args.a2.toNat ∧
        s.args.a2.toNat ≤ 8192)

/-- DUPLICATE of check 5 (46_engine.md R585): the effect ARG0 names is in the chain. -/
def Duplicate (i : Instr) (s : State) : Prop := i = .engAddProc ∧ ∃ r ∈ s.chain, r.live s ∧ s.args.a0 = fxHandle r

/-- POOL_FULL of check 5 (60_exceptions.md R630): no free slot, channel id or chain place. -/
def NoRoom (i : Instr) (s : State) : Prop :=
  match i with
  | .oscCreate => none ∉ s.osc
  | .polyCreate => none ∉ s.poly
  | .envCreate => none ∉ s.env
  | .epoolCreate => none ∉ s.epool
  | .dlyCreate => none ∉ s.dly
  | .fltCreate => none ∉ s.flt
  | .revCreate => none ∉ s.rev
  | .mixAddChannel => ∃ m, s.mixer = some m ∧ (m.ch.length = 8 ∨ m.nextId = 0xFFFFFFFF#32)
  | .engAddProc => s.chain.length = 8
  | _ => False

/-- Check 6 of R632: the command asks DEVICE and DEVICE answers no (46_engine.md R581-R583). -/
def DeviceRefuses (i : Instr) (s : State) : Prop :=
  ((i = .engStart ∧ s.eng.state = .stopped) ∨ (i = .engStop ∧ s.eng.state = .running)) ∧ deviceAnswer s = false

/-- The codes a command can raise beyond ILLEGAL_CMD, in check order (the table of R632). -/
def possibleCodes : Instr → List ErrCode
  | .nop | .engGetMetrics => []
  | .oscCreate | .polyCreate | .envCreate | .epoolCreate | .dlyCreate | .fltCreate | .revCreate => [.notInit, .poolFull]
  | .oscSetFreq | .oscSetAmp | .oscSetWave | .polyNoteOn | .polyNoteOff | .polySetWave => [.badHandle, .badArg]
  | .envSetAttack | .envSetDecay | .envSetSustain | .envSetRelease => [.badHandle, .badArg]
  | .envNoteOn | .envNoteOff | .envGet => [.badHandle]
  | .epoolNoteOn | .epoolNoteOff | .epoolSet | .epoolAdvance | .epoolGet => [.badHandle, .badArg]
  | .dlySetTime | .dlySetFeedback | .fltSetMode | .fltSetCutoff | .fltSetQ | .revSetRoom | .revSetDecay =>
    [.badHandle, .badArg]
  | .fxSetDry | .fxSetWet | .fxSetBypass | .fxProcess => [.badHandle, .badArg]
  | .mixAddChannel => [.notInit, .poolFull]
  | .mixRemoveChannel | .chConnect => [.notInit, .badHandle]
  | .chSetVolume | .chSetPan | .chSetMute => [.notInit, .badHandle, .badArg]
  | .mixSetMaster | .mixGenerate => [.notInit, .badArg]
  | .srcGenerate => [.badHandle, .badArg]
  | .fifoWrite | .fifoRead | .fifoPeek | .ringWrite | .ringRead => [.notInit, .badArg]
  | .fifoMetrics | .ringMetrics => [.notInit]
  | .engInit => [.configError]
  | .engStart => [.notInit, .deviceError]
  | .engStop => [.deviceError]
  | .engAddProc => [.badHandle, .duplicate, .poolFull]
  | .engRemoveProc => [.badHandle]

/-- How many of RES0.. a command's rule defines (the results column of 30_encoding.md R202). -/
def resultCount : Instr → Nat
  | .oscCreate | .polyCreate | .envCreate | .epoolCreate | .dlyCreate | .fltCreate | .revCreate => 1
  | .polyNoteOn | .polyNoteOff | .epoolNoteOn | .epoolNoteOff => 1
  | .envGet => 2
  | .epoolGet => 3
  | .mixAddChannel | .mixRemoveChannel | .chConnect => 1
  | .fifoWrite | .fifoRead | .fifoPeek | .ringWrite | .ringRead => 1
  | .fifoMetrics | .ringMetrics => 5
  | .engInit | .engStart | .engStop | .engAddProc | .engRemoveProc => 1
  | .engGetMetrics => 4
  | _ => 0

/-- How many SWIN words from word 0 on a command that completes writes (30_encoding.md R202, 10_state.md R61). -/
def swinWritten (i : Instr) (s : State) : Nat :=
  match i with
  | .mixGenerate | .fifoRead | .fifoPeek => 2 * s.args.a0.toNat
  | .fxProcess => 2 * s.args.a1.toNat
  | .srcGenerate => s.args.a1.toNat
  | .ringRead => s.args.a0.toNat
  | _ => 0

/-! ## Correct rounding (00_scope.md R9) -/

/-- `r` is the binary32 value nearest `num / den` units of 2^-149, ties to the even significand: infinite from halfway
past the largest finite value on, else finite and at no greater distance than any finite value. -/
def Nearest (r : Word) (num : Int) (den : Nat) : Prop :=
  if (2 ^ 25 - 1) * 2 ^ 252 * den ≤ num.natAbs then r = B32.inf (decide (num < 0))
  else
    B32.isFinite r = true ∧ ∀ x, B32.isFinite x = true →
      (num - den * B32.val r).natAbs ≤ (num - den * B32.val x).natAbs ∧
        ((num - den * B32.val r).natAbs = (num - den * B32.val x).natAbs → B32.val x = B32.val r ∨ B32.mag r % 2 = 0)

/-! ## Safe inputs -/

/-- The input is one the block serves: any frame request, and every bus access of 4 bytes at an aligned address of the
port (20_memory.md R155). -/
def Input.served (base : Nat) : Input → Prop
  | .busRead a size => accepts base a size = true
  | .busWrite a size _ => accepts base a size = true
  | .frame _ => True

/-- A safe state: sound, legal, and every pending input is served. -/
def Safe (s : State) : Prop := Sound s ∧ Legal s ∧ ∀ e ∈ s.inputs, Input.served s.cpBase e

end Sys2Proof.Machine
end

