-- ==== Sys2Proof/Certificates/Slice0/Obligations.lean ====
section
/-! DEFINITION. The statements for the provers: what the rules of the spec say, over every state and every operand. -/

open Sys2Proof Sys2Proof.Machine

/-! ## The words the statements use -/

namespace Sys2Proof.Claim

/-- The state a completed command leaves: STATUS.ERR = OK and the six results (10_state.md R57, R58). -/
def done (s : State) (res : Res) : State := { s with err := .ok, res := res }

/-- The state a failed command leaves: its code, RES0 and five zeros (60_exceptions.md R633). -/
def failed (s : State) (e : ErrCode) (r0 : Word) : State := { s with err := e, res := ⟨r0, 0, 0, 0, 0, 0⟩ }

/-- Six results of which none is defined. -/
def noResult : Res := ⟨0, 0, 0, 0, 0, 0⟩

/-- RES0 defined, the rest 0. -/
def result (w : Word) : Res := ⟨w, 0, 0, 0, 0, 0⟩

/-- The command raises BAD_HANDLE when ARG0 is no valid handle of the kinds it accepts. -/
def NeedsHandle (i : Instr) (kinds : List Kind) : Prop :=
  ∀ s : State, BadHandle s s.args.a0 kinds → exec i s = .next (failed s .badHandle 0)

/-- The command raises BAD_ARG when ARG0 is a handle it accepts and another argument is refused. -/
def RefusesArg (i : Instr) (kinds : List Kind) (refused : State → Prop) : Prop :=
  ∀ (s : State) (kind : Kind) (k : Nat), kind ∈ kinds → HandleNames s s.args.a0 kind k → refused s →
    exec i s = .next (failed s .badArg 0)

/-- Slot `k` is the lowest unallocated slot of a pool (10_state.md R55). -/
def LowestFree {α : Type} (pool : List (Option α)) (k : Nat) : Prop :=
  pool[k]? = some none ∧ ∀ j, j < k → ∃ u, pool[j]? = some (some u)

/-- A create command's errors: NOT_INIT before the first init, POOL_FULL with no free slot, RES0 = 0xFFFFFFFF. -/
def CreateFails {α : Type} (i : Instr) (pool : State → List (Option α)) : Prop :=
  ∀ s : State,
    (s.eng.state = .uninit → exec i s = .next (failed s .notInit 0xFFFFFFFF#32)) ∧
    (s.eng.state ≠ .uninit → none ∉ pool s → exec i s = .next (failed s .poolFull 0xFFFFFFFF#32))

/-- An ENV record at creation (10_state.md R65), its rates by 42_envelope.md R350. -/
def freshEnv (sr : Word) : Env :=
  { sr := sr, attackT := 0x3DCCCCCD#32, decayT := 0x3DCCCCCD#32, releaseT := 0x3E99999A#32, sustain := 0x3F333333#32
    attackRate := B32.div B32.one (B32.mul 0x3DCCCCCD#32 (B32.ofNat sr.toNat))
    decayRate := B32.div (B32.sub B32.one 0x3F333333#32) (B32.mul 0x3DCCCCCD#32 (B32.ofNat sr.toNat))
    releaseRate := B32.div B32.one (B32.mul 0x3E99999A#32 (B32.ofNat sr.toNat))
    state := .idle, level := 0 }

/-- The zero of a sign (00_scope.md R9). -/
def zeroOf (negative : Bool) : Word := if negative then 0x80000000#32 else 0

/-- The infinity of a sign. -/
def infinityOf (negative : Bool) : Word := if negative then 0xFF800000#32 else 0x7F800000#32

/-- A quiet NaN: bits [30:22] all ones. -/
def QuietNaN (w : Word) : Prop := w.toNat / 2 ^ 22 % 2 ^ 9 = 2 ^ 9 - 1

/-- Waveform codes (92_eei_decisions.md D9). -/
def waveNumber : Wave → Nat
  | .sine => 0
  | .square => 1
  | .triangle => 2
  | .sawtooth => 3
  | .noise => 4

/-- Filter mode codes (92_eei_decisions.md D9). -/
def modeNumber : FilterMode → Nat
  | .lowpass => 0
  | .highpass => 1
  | .bandpass => 2

end Sys2Proof.Claim

open Sys2Proof.Claim

/-! ## Encoding (30_encoding.md) -/

/-- R200, R202, R205: a word is a command's exactly if it is the command's encoding, and a command is exactly one word of
the byte stream, little-endian: decoding the encoding gives the command back and leaves the bytes that follow, and
whichever four bytes decode are an encoding. -/
def Obligations.CommandWordsRoundTrip : Prop :=
  (∀ (i : Instr) (w : Word), decode w = .ok i ↔ w = encode i) ∧
  (∀ (i : Instr) (rest : List Byte), decodeBytes (bytesOfWord (encode i) ++ rest) = .ok (i, rest)) ∧
  (∀ (bytes rest : List Byte) (i : Instr), decodeBytes bytes = .ok (i, rest) → bytes = bytesOfWord (encode i) ++ rest)

/-- R203: which command words are illegal, and what a host write of one to CMD does: STATUS.ERR = 1, RES0..RES5 = 0, CMD
holds the word (R54), and nothing else changes. -/
def Obligations.IllegalCommandWords : Prop :=
  ∀ (s : State) (w : Word),
    let op := w.toNat % 2 ^ 8
    let reserved := (0x01 ≤ op ∧ op ≤ 0x0F) ∨ (0x14 ≤ op ∧ op ≤ 0x17) ∨ (0x1C ≤ op ∧ op ≤ 0x1F) ∨
      (0x2E ≤ op ∧ op ≤ 0x2F) ∨ (0x3E ≤ op ∧ op ≤ 0x3F) ∨ (0x49 ≤ op ∧ op ≤ 0x4F) ∨ (0x57 ≤ op ∧ op ≤ 0x5F) ∨
      0x66 ≤ op
    ((∀ i, decode w ≠ .ok i) ↔ w.toNat / 2 ^ 8 ≠ 0 ∨ reserved) ∧
    (w.toNat / 2 ^ 8 ≠ 0 ∨ reserved → regWrite s .cmd w = .next (failed { s with cmd := w } .illegalCmd 0))

/-- R200, R202: one command word of each family, written out as `0x000000 ‖ OPC`, and one as its four bytes. -/
def Obligations.SampleCommandWords : Prop :=
  decode 0x00000000#32 = .ok .nop ∧ decode 0x00000011#32 = .ok .oscSetFreq ∧ decode 0x00000019#32 = .ok .polyNoteOn ∧
  decode 0x00000027#32 = .ok .envGet ∧ decode 0x0000002C#32 = .ok .epoolAdvance ∧
  decode 0x00000035#32 = .ok .fltSetCutoff ∧ decode 0x0000003D#32 = .ok .fxProcess ∧
  decode 0x00000043#32 = .ok .chSetVolume ∧ decode 0x00000048#32 = .ok .srcGenerate ∧
  decode 0x00000054#32 = .ok .ringWrite ∧ decode 0x00000060#32 = .ok .engInit ∧
  decodeBytes [0x65#8, 0x00#8, 0x00#8, 0x00#8] = .ok (.engRemoveProc, [])

/-! ## A step (20_memory.md, 10_state.md) -/

/-- R54, R150, R205: when the next input is the host's write of a command word to CMD, the step is that command run on the
state with CMD holding the word; `withFetchWord` places exactly such an input. (The pending inputs and the base address are
the model's own fields, notes/assumptions/1.md and 2.md.) -/
def Obligations.StepRunsCommand : Prop :=
  (∀ (s : State) (w : Word) (i : Instr) (rest : List Input),
    s.inputs = .busWrite s.cpBase 4 w :: rest → decode w = .ok i →
      step s = exec i { s with inputs := rest, cmd := w }) ∧
  (∀ (s : State) (i : Instr), step (s.withFetchWord 32 (encode i).toNat) = exec i { s with cmd := encode i }) ∧
  (∀ (s : State) (n : Nat) (rest : List Input),
    s.inputs = .frame n :: rest → step s = .next (frameRequest { s with inputs := rest } n)) ∧
  (∀ s : State, s.inputs = [] → step s = .next s)

/-- R155, R646: a bus access of another size than 4 bytes or at an address that is not a multiple of 4 is refused; so is
one outside the command port, for which 93_implementation_defined.md I15 and 92_eei_decisions.md D41 give the bus error
that R155 leaves unsaid ("not addressed to the block"; notes/assumptions/4.md). Every aligned 4-byte access inside the port
and every frame request is a step that completes. A refusal carries no state, so nothing is written. The port's base is a
multiple of 4, which is the model's reading (notes/assumptions/1.md), and the pending inputs are the model's own field
(notes/assumptions/2.md). -/
def Obligations.BusErrors : Prop :=
  ∀ (s : State) (rest : List Input) (a size n : Nat) (w : Word), s.cpBase % 4 = 0 →
    let accepted := s.cpBase ≤ a ∧ a < s.cpBase + 0x20000 ∧ size = 4 ∧ a % 4 = 0
    (s.inputs = .busRead a size :: rest ∨ s.inputs = .busWrite a size w :: rest →
      (¬ accepted → step s = .refused (.busError a size)) ∧ (accepted → ∃ t, step s = .next t ∧ t.inputs = rest)) ∧
    (s.inputs = .frame n :: rest → ∃ t, step s = .next t ∧ t.inputs = rest)

/-- R53, R155, R158: what each offset of the command port reads; a read step hands back the word, takes its input and has no
other effect; ARG registers store a word written, the read-only registers and the reserved offsets ignore it, and a SWIN
word written reads back while every other word of the window keeps its value. A write to CMD runs the command
(`StepRunsCommand`). -/
def Obligations.RegisterMap : Prop :=
  (∀ s : State,
     portRead s 0x00 = s.cmd ∧ portRead s 0x04 = s.args.a0 ∧ portRead s 0x08 = s.args.a1 ∧
     portRead s 0x0C = s.args.a2 ∧ portRead s 0x10 = s.args.a3 ∧ portRead s 0x14 = statusWord s ∧
     portRead s 0x18 = s.res.r0 ∧ portRead s 0x1C = s.res.r1 ∧ portRead s 0x20 = s.res.r2 ∧ portRead s 0x24 = s.res.r3 ∧
     portRead s 0x28 = s.res.r4 ∧ portRead s 0x2C = s.res.r5 ∧ portRead s 0x30 = s.eng.underruns ∧
     portRead s 0x34 = s.eng.peak ∧ portRead s 0x38 = s.eng.latency ∧ portRead s 0x3C = s.eng.cpuload ∧
     portRead s 0x40 = s.eng.sr ∧ portRead s 0x44 = s.eng.ch ∧ portRead s 0x48 = s.eng.bufsz ∧
     portRead s 0x4C = 0x4147534F#32 ∧ portRead s 0x50 = 0x00000007#32 ∧
     (∀ off, 0x54 ≤ off → off ≤ 0xFFFC → portRead s off = 0) ∧
     (∀ j, j < 16384 → portRead s (0x10000 + 4 * j) = s.swin.word j)) ∧
  (∀ (s : State) (rest : List Input) (off : Nat), off < 0x20000 → off % 4 = 0 →
     s.inputs = .busRead (s.cpBase + off) 4 :: rest →
       step s = .next { s with inputs := rest, rdata := portRead s off }) ∧
  (∀ (s : State) (w : Word),
     portWrite s 0x04 w = .next { s with args := { s.args with a0 := w } } ∧
     portWrite s 0x08 w = .next { s with args := { s.args with a1 := w } } ∧
     portWrite s 0x0C w = .next { s with args := { s.args with a2 := w } } ∧
     portWrite s 0x10 w = .next { s with args := { s.args with a3 := w } } ∧
     (∀ off, 0x14 ≤ off → off ≤ 0xFFFC → portWrite s off w = .next s) ∧
     (∀ j, j < 16384 → ∃ m, portWrite s (0x10000 + 4 * j) w = .next { s with swin := m } ∧
       m.word j = w ∧ ∀ i, i < 16384 → i ≠ j → m.word i = s.swin.word i))

/-- R157: the byte lanes of a word of the window, little-endian: a byte of SWIN stands in the lane of its address, and the
four lanes of every word put together are the word; the same lanes of every word of the output region, which has no byte
past its words. (The output region is the model's own field, notes/assumptions/2.md.) -/
def Obligations.ByteLanes : Prop :=
  (∀ (s : State) (off : Nat), off % 4 = 0 →
    (portByte s off).toNat = (portRead s off).toNat % 2 ^ 8 ∧
    (portByte s (off + 1)).toNat = (portRead s off).toNat / 2 ^ 8 % 2 ^ 8 ∧
    (portByte s (off + 2)).toNat = (portRead s off).toNat / 2 ^ 16 % 2 ^ 8 ∧
    (portByte s (off + 3)).toNat = (portRead s off).toNat / 2 ^ 24 ∧
    (0x10000 ≤ off → ∀ r, r < 4 → portByte s (off + r) = s.swin.byte (off + r))) ∧
  (∀ (s : State) (j : Nat) (w : Word), s.out[j]? = some w →
    outByte s (4 * j) = some (BitVec.ofNat 8 (w.toNat % 2 ^ 8)) ∧
    outByte s (4 * j + 1) = some (BitVec.ofNat 8 (w.toNat / 2 ^ 8 % 2 ^ 8)) ∧
    outByte s (4 * j + 2) = some (BitVec.ofNat 8 (w.toNat / 2 ^ 16 % 2 ^ 8)) ∧
    outByte s (4 * j + 3) = some (BitVec.ofNat 8 (w.toNat / 2 ^ 24))) ∧
  (∀ (s : State) (off : Nat), 4 * s.out.length ≤ off → outByte s off = none)

/-- R58, R630: the fields of STATUS with the number of each error code and engine state, that code 3 of STATUS.ENG never
occurs, that STATUS is 0 after reset, that frame requests do not write it, and that it is read-only. -/
def Obligations.StatusFields : Prop :=
  ∀ (s : State) (n : Nat) (w : Word),
    ((statusWord s).toNat % 2 ^ 8 = match s.err with
      | .ok => 0
      | .illegalCmd => 1
      | .badArg => 2
      | .badHandle => 3
      | .poolFull => 4
      | .notInit => 5
      | .configError => 6
      | .deviceError => 7
      | .duplicate => 8) ∧
    ((statusWord s).toNat / 2 ^ 8 % 4 = match s.eng.state with
      | .uninit => 0
      | .stopped => 1
      | .running => 2) ∧
    (statusWord s).toNat / 2 ^ 8 % 4 ≠ 3 ∧
    (statusWord s).toNat / 2 ^ 10 = 0 ∧
    statusWord State.reset = 0 ∧
    statusWord (frameRequest s n) = statusWord s ∧
    portWrite s 0x14 w = .next s

/-! ## Reset (10_state.md R80) -/

/-- R80, R680: the state after power-on reset. -/
def Obligations.ResetState : Prop :=
  let s := State.reset
  (∀ off, off < 0x20000 → off ≠ 0x4C → off ≠ 0x50 → off % 4 = 0 → portRead s off = 0) ∧
  portRead s 0x4C = 0x4147534F#32 ∧ portRead s 0x50 = 0x00000007#32 ∧
  s.eng = ⟨.uninit, 0, 0, 0, 0, 0, 0, 0⟩ ∧
  (∀ k i, allocated s k i = false) ∧ s.osc.length = 16 ∧ s.poly.length = 4 ∧ s.env.length = 16 ∧ s.epool.length = 4 ∧
  s.dly.length = 4 ∧ s.flt.length = 4 ∧ s.rev.length = 2 ∧
  s.mixer = none ∧ s.fifo = none ∧ s.ring = none ∧ s.chain = []

/-! ## Every command (60_exceptions.md, 10_state.md) -/

/-- R632 with R631 and R633: the checks of a command in their order. The first check that fails decides the code, and the
state is then as before but for STATUS and RES; a device's refusal is stated by its code and results here and whole in
`EngineStartStop`. When no check fails the command completes with ERR = OK. And the rule's table: a command raises no code
the table does not list for it, and every command answers a next state. -/
def Obligations.CheckOrder : Prop :=
  (∀ (i : Instr) (s : State), Sound s →
     (¬ EngineReady i s → exec i s = .next (failed s .notInit (failResult i))) ∧
     (EngineReady i s → ¬ NamesOk i s → exec i s = .next (failed s .badHandle 0)) ∧
     (EngineReady i s → NamesOk i s → ¬ ValuesOk i s →
       exec i s = .next (failed s (if i = .engInit then .configError else .badArg) 0)) ∧
     (EngineReady i s → NamesOk i s → ValuesOk i s → Duplicate i s → exec i s = .next (failed s .duplicate 0)) ∧
     (EngineReady i s → NamesOk i s → ValuesOk i s → ¬ Duplicate i s → NoRoom i s →
       exec i s = .next (failed s .poolFull (failResult i))) ∧
     (EngineReady i s → NamesOk i s → ValuesOk i s → ¬ Duplicate i s → ¬ NoRoom i s → DeviceRefuses i s →
       ∃ t, exec i s = .next t ∧ t.err = .deviceError ∧ t.res = noResult) ∧
     (EngineReady i s → NamesOk i s → ValuesOk i s → ¬ Duplicate i s → ¬ NoRoom i s → ¬ DeviceRefuses i s →
       ∃ t, exec i s = .next t ∧ t.err = .ok)) ∧
  (∀ (i : Instr) (s : State), ∃ t, exec i s = .next t ∧ (t.err = .ok ∨ t.err ∈ possibleCodes i))

/-- R633: a failed command changes only STATUS.ERR and RES0..RES5; ENG_STOP's DEVICE_ERROR alone still moves the engine to
STOPPED. (A request to the device, refused or not, takes its draw of DEVOK: the oracle's counter, the model's own field,
moves on, notes/assumptions/7.md.) -/
def Obligations.FailedCommandIsPrecise : Prop :=
  ∀ (i : Instr) (s t : State), exec i s = .next t → t.err ≠ .ok →
    t.res = result (failResult i) ∧
    (t.err ≠ .deviceError → t = { s with err := t.err, res := t.res }) ∧
    (t.err = .deviceError → i = .engStart →
      t = { s with err := .deviceError, res := t.res, draws := { s.draws with devok := s.draws.devok + 1 } }) ∧
    (t.err = .deviceError → i = .engStop →
      t = { s with
        err := .deviceError, res := t.res, draws := { s.draws with devok := s.draws.devok + 1 }
        eng := { s.eng with state := .stopped } }) ∧
    (t.err = .deviceError → i = .engStart ∨ i = .engStop)

/-- R56: no command changes ARG0-ARG3. Nor does one write CMD, or the model's own fields for the base address, the pending
inputs, the last word read and the output region (notes/assumptions/2.md), which are no part of its effect. -/
def Obligations.CommandsKeepOperands : Prop :=
  ∀ (i : Instr) (s t : State), exec i s = .next t →
    t.args = s.args ∧ t.cmd = s.cmd ∧ t.cpBase = s.cpBase ∧ t.inputs = s.inputs ∧ t.rdata = s.rdata ∧ t.out = s.out

/-- R57: every command writes all six result registers, those its rule does not define with 0; a failed one writes 0 to
each, but for RES0 of a failed create or MIX_ADD_CHANNEL. -/
def Obligations.ResultRegisters : Prop :=
  ∀ (i : Instr) (s t : State), exec i s = .next t →
    (∀ w ∈ [t.res.r0, t.res.r1, t.res.r2, t.res.r3, t.res.r4, t.res.r5].drop (resultCount i), w = 0) ∧
    (t.err ≠ .ok → t.res = ⟨failResult i, 0, 0, 0, 0, 0⟩) ∧
    (∀ res, exec i { s with res := res } = .next t)

/-- R645, R60, R641: only ENG_INIT, ENG_START and ENG_STOP change the engine's state, only a successful ENG_INIT its
configuration, mixer, FIFO and ring presence, no command touches underruns, peak or cpuload, and every frame request
leaves state and configuration alone and never lowers the underrun count. -/
def Obligations.EngineWriters : Prop :=
  (∀ (i : Instr) (s t : State), exec i s = .next t →
    (i ∉ [.engInit, .engStart, .engStop] → t.eng = s.eng) ∧
    (i ≠ .engInit → t.eng.sr = s.eng.sr ∧ t.eng.ch = s.eng.ch ∧ t.eng.bufsz = s.eng.bufsz ∧
      t.eng.latency = s.eng.latency ∧ (t.mixer.isSome = s.mixer.isSome) ∧ (t.fifo.isSome = s.fifo.isSome) ∧
      (t.ring.isSome = s.ring.isSome)) ∧
    t.eng.underruns = s.eng.underruns ∧ t.eng.peak = s.eng.peak ∧ t.eng.cpuload = s.eng.cpuload ∧
    (t.eng.state = .uninit → s.eng.state = .uninit)) ∧
  (∀ (s : State) (n : Nat),
    let t := frameRequest s n
    t.eng.state = s.eng.state ∧ t.eng.sr = s.eng.sr ∧ t.eng.ch = s.eng.ch ∧ t.eng.bufsz = s.eng.bufsz ∧
      s.eng.underruns.toNat ≤ t.eng.underruns.toNat)

/-- R55: slots are allocated only by the create commands, at the lowest unallocated index of the kind's pool, and are
never freed by a step. -/
def Obligations.UnitsAreNeverFreed : Prop :=
  (∀ (s t : State) (k : Kind) (j : Nat), step s = .next t → allocated s k j = true → allocated t k j = true) ∧
  (∀ (i : Instr) (s t : State) (k : Kind) (j : Nat), exec i s = .next t → allocated s k j = false →
    allocated t k j = true → createdKind i = some k ∧ ∀ j', j' < j → allocated s k j' = true) ∧
  (∀ (s : State) (n : Nat) (k : Kind) (j : Nat), allocated (frameRequest s n) k j = allocated s k j)

/-- R61: a command writes only the words of the sample window its rule names, from word 0 on, every other byte of the
window keeps its value, a failed command writes none, and frame requests never write it. -/
def Obligations.SampleWindowWriters : Prop :=
  (∀ (i : Instr) (s t : State), exec i s = .next t →
    (i ∉ [.mixGenerate, .srcGenerate, .fxProcess, .fifoRead, .fifoPeek, .ringRead] → t.swin = s.swin) ∧
    (t.err ≠ .ok → t.swin = s.swin) ∧
    (∀ off, off < 0x10000 ∨ 0x10000 + 4 * swinWritten i s ≤ off → t.swin.byte off = s.swin.byte off) ∧
    (∀ j, swinWritten i s ≤ j → t.swin.word j = s.swin.word j)) ∧
  (∀ (s : State) (n : Nat), (frameRequest s n).swin = s.swin)

/-- R79: an effect's bypass bit is written by FX_SET_BYPASS alone and a channel's mute bit by CH_SET_MUTE alone: no other
command and no frame request changes the bit of a unit or of a channel that was there before. -/
def Obligations.FlagWriters : Prop :=
  (∀ (i : Instr) (s t : State) (k : Nat), exec i s = .next t → i ≠ .fxSetBypass →
    (∀ u, poolGet s.dly k = some u → ∃ v, poolGet t.dly k = some v ∧ v.mix.bypass = u.mix.bypass) ∧
    (∀ u, poolGet s.flt k = some u → ∃ v, poolGet t.flt k = some v ∧ v.mix.bypass = u.mix.bypass) ∧
    (∀ u, poolGet s.rev k = some u → ∃ v, poolGet t.rev k = some v ∧ v.mix.bypass = u.mix.bypass)) ∧
  (∀ (i : Instr) (s t : State) (m m' : Mixer) (id : Word) (c c' : Channel), exec i s = .next t →
    i ∉ [.chSetMute, .engInit] → s.mixer = some m → t.mixer = some m' →
      findChannel m.ch id = some c → findChannel m'.ch id = some c' → c'.mute = c.mute) ∧
  (∀ (s : State) (n k : Nat),
    let t := frameRequest s n
    (∀ u, poolGet s.dly k = some u → ∃ v, poolGet t.dly k = some v ∧ v.mix.bypass = u.mix.bypass) ∧
    (∀ u, poolGet s.flt k = some u → ∃ v, poolGet t.flt k = some v ∧ v.mix.bypass = u.mix.bypass) ∧
    (∀ u, poolGet s.rev k = some u → ∃ v, poolGet t.rev k = some v ∧ v.mix.bypass = u.mix.bypass) ∧
    (∀ m m' id c c', s.mixer = some m → t.mixer = some m' → findChannel m.ch id = some c →
      findChannel m'.ch id = some c' → c'.mute = c.mute))

/-- R681: before the first successful init every create, mixer, channel, FIFO and ring command, and ENG_START, raises
NOT_INIT whatever its arguments, and every frame request writes silence and counts one underrun. -/
def Obligations.BeforeInit : Prop :=
  ∀ s : State, Sound s → s.eng.state = .uninit →
    (∀ i, (createdKind i).isSome = true ∨ i ∈ mixerCommands ++ fifoCommands ++ ringCommands ++ [.engStart] →
      exec i s = .next (failed s .notInit (failResult i))) ∧
    (∀ n, 0 < n → (frameRequest s n).out = List.replicate (2 * n) 0 ∧
      (frameRequest s n).eng.underruns = satInc s.eng.underruns)

/-! ## Invariants -/

/-- 10_state.md R55-R77: every step keeps the structure of the state: SWIN's canonical form, pool sizes and lengths, the
increments, rates, coefficients and geometries that belong to the parameters, injective note maps, live references,
bounded channels, FIFO, ring and chain, and what belongs to each engine state. -/
def Obligations.SoundIsInvariant : Prop := ∀ s t : State, Sound s → step s = .next t → Sound t

/-- 10_state.md R63-R72: in a sound state every step keeps every parameter in its range and every phase in [0, 2π). -/
def Obligations.LegalIsInvariant : Prop := ∀ s t : State, Sound s → Legal s → step s = .next t → Legal t

/-- 10_state.md R80: the state after reset is sound and legal, and so is safe with no input pending. -/
def Obligations.ResetIsSafe : Prop := Sound State.reset ∧ Legal State.reset ∧ Safe State.reset

/-! ## Arithmetic (00_scope.md R9-R15) -/

/-- R9: on finite operands each of +, -, ·, / gives the exact result rounded once to nearest, ties to even, overflow to
infinity, subnormals kept, and fmod gives the exact remainder with the sign of its first operand; a zero has the sign IEEE
754 gives it, and a nonzero value divided by zero is infinite. With a NaN operand every result is a quiet NaN, and with an
infinite one it is what IEEE 754 says: infinite, zero, an operand or a quiet NaN. `|v|` and `-v` touch the sign bit alone. -/
def Obligations.ArithmeticIsCorrectlyRounded : Prop :=
  (∀ a b : Word, B32.isFinite a = true → B32.isFinite b = true →
    Nearest (B32.add a b) (B32.val a + B32.val b) 1 ∧
    Nearest (B32.sub a b) (B32.val a - B32.val b) 1 ∧
    Nearest (B32.mul a b) (B32.val a * B32.val b) (2 ^ 149) ∧
    (B32.val b ≠ 0 →
      Nearest (B32.div a b) (B32.val a * 2 ^ 149 * (B32.val b).sign) (B32.val b).natAbs ∧
      B32.isFinite (B32.fmod a b) = true ∧ B32.val (B32.fmod a b) = (B32.val a).tmod (B32.val b) ∧
      B32.sign (B32.fmod a b) = B32.sign a) ∧
    (B32.val a + B32.val b = 0 → B32.add a b = zeroOf (B32.sign a && B32.sign b)) ∧
    (B32.val a - B32.val b = 0 → B32.sub a b = zeroOf (B32.sign a && !B32.sign b)) ∧
    B32.sign (B32.mul a b) = xor (B32.sign a) (B32.sign b) ∧
    (B32.val b ≠ 0 → B32.sign (B32.div a b) = xor (B32.sign a) (B32.sign b)) ∧
    (B32.val b = 0 → B32.val a ≠ 0 → B32.div a b = infinityOf (xor (B32.sign a) (B32.sign b))) ∧
    (B32.val b = 0 → (B32.val a = 0 → QuietNaN (B32.div a b)) ∧ QuietNaN (B32.fmod a b))) ∧
  (∀ a b : Word, B32.isNaN a = true ∨ B32.isNaN b = true →
    ∀ r ∈ [B32.add a b, B32.sub a b, B32.mul a b, B32.div a b, B32.fmod a b], QuietNaN r) ∧
  (∀ a b : Word, B32.isInf a = true → B32.isFinite b = true →
    B32.add a b = a ∧ B32.add b a = a ∧ B32.sub a b = a ∧ B32.sub b a = B32.neg a ∧
    (B32.val b = 0 → QuietNaN (B32.mul a b) ∧ QuietNaN (B32.mul b a)) ∧
    (B32.val b ≠ 0 → B32.mul a b = infinityOf (xor (B32.sign a) (B32.sign b)) ∧
      B32.mul b a = infinityOf (xor (B32.sign a) (B32.sign b))) ∧
    B32.div a b = infinityOf (xor (B32.sign a) (B32.sign b)) ∧ B32.div b a = zeroOf (xor (B32.sign a) (B32.sign b)) ∧
    QuietNaN (B32.fmod a b) ∧ B32.fmod b a = b) ∧
  (∀ a b : Word, B32.isInf a = true → B32.isInf b = true →
    (B32.sign a = B32.sign b → B32.add a b = a ∧ QuietNaN (B32.sub a b)) ∧
    (B32.sign a ≠ B32.sign b → QuietNaN (B32.add a b) ∧ B32.sub a b = a) ∧
    B32.mul a b = infinityOf (xor (B32.sign a) (B32.sign b)) ∧ QuietNaN (B32.div a b) ∧ QuietNaN (B32.fmod a b)) ∧
  (∀ x : Word,
    B32.mag (B32.abs x) = B32.mag x ∧ B32.sign (B32.abs x) = false ∧
    B32.mag (B32.neg x) = B32.mag x ∧ B32.sign (B32.neg x) = !B32.sign x)

/-- R15, R10, R9: `f32(k)` is exact for every integer the block converts, the negative note - 69 included, and rounding or
flooring a count gives it back; `roundHalfAway` is at most half a unit off and goes away from zero on a tie. Comparisons
order the values, false with a NaN; `clamp` gives lo below lo, hi above hi and the value itself between, -0.0 kept and an
infinity clamped to its end. `sat_inc` adds 1 up to 0xFFFFFFFF and stays there. -/
def Obligations.IntegerConversions : Prop :=
  (∀ k : Nat, k ≤ 2 ^ 24 →
    B32.isFinite (B32.ofNat k) = true ∧ B32.val (B32.ofNat k) = k * 2 ^ 149 ∧ B32.roundHalfAway (B32.ofNat k) = k ∧
      B32.floor (B32.ofNat k) = k) ∧
  (∀ x : Word, B32.isFinite x = true →
    B32.floor x * 2 ^ 149 ≤ B32.val x ∧ B32.val x < (B32.floor x + 1) * 2 ^ 149 ∧
    2 * (B32.roundHalfAway x * 2 ^ 149 - B32.val x).natAbs ≤ 2 ^ 149 ∧
    (2 * (B32.roundHalfAway x * 2 ^ 149 - B32.val x).natAbs = 2 ^ 149 →
      (B32.val x).natAbs < (B32.roundHalfAway x * 2 ^ 149).natAbs)) ∧
  (∀ note : Fin 128,
    B32.isFinite (B32.ofInt ((note.val : Int) - 69)) = true ∧
      B32.val (B32.ofInt ((note.val : Int) - 69)) = ((note.val : Int) - 69) * 2 ^ 149) ∧
  (∀ a b : Word,
    (B32.isNaN a = true ∨ B32.isNaN b = true → B32.lt a b = false ∧ B32.le a b = false) ∧
    (B32.isFinite a = true → B32.isFinite b = true →
      (B32.lt a b = true ↔ B32.val a < B32.val b) ∧ (B32.le a b = true ↔ B32.val a ≤ B32.val b)) ∧
    (B32.isFinite a = true → B32.lt a (infinityOf false) = true ∧ B32.lt (infinityOf true) a = true)) ∧
  (∀ v lo hi : Word, B32.isFinite lo = true → B32.isFinite hi = true → B32.val lo ≤ B32.val hi →
    (B32.isFinite v = true →
      (B32.val v < B32.val lo → B32.clamp v lo hi = lo) ∧ (B32.val hi < B32.val v → B32.clamp v lo hi = hi) ∧
      (B32.val lo ≤ B32.val v → B32.val v ≤ B32.val hi → B32.clamp v lo hi = v)) ∧
    B32.clamp (infinityOf false) lo hi = hi ∧ B32.clamp (infinityOf true) lo hi = lo) ∧
  B32.clamp 0x80000000#32 0 0x3F800000#32 = 0x80000000#32 ∧
  (∀ c : Word, (satInc c).toNat = min (c.toNat + 1) 0xFFFFFFFF)

/-- R13: a NOISE draw lies in [-1, 1] and a CPULOAD draw is at least +0.0, neither a NaN. How the model draws is its own
choice: the draw is an opaque constant at the oracle's counter, taken as it is when it lies in the set (notes/assumptions/5.md
and 6.md, DESIGN CHOICE), and -0.0 counts as at least +0.0 (6.md, DESIGN CHOICE). -/
def Obligations.DrawsInRange : Prop :=
  ∀ k : Nat,
    InRange 0xBF800000#32 (noiseDraw k) 0x3F800000#32 ∧
    (InRange 0xBF800000#32 (Config.noise k) 0x3F800000#32 → noiseDraw k = Config.noise k) ∧
    B32.le 0 (cpuLoadDraw k) = true ∧ B32.isNaN (cpuLoadDraw k) = false ∧
    (B32.le 0 (Config.cpuLoad k) = true → cpuLoadDraw k = Config.cpuLoad k)

/-! ## Sources (41_oscillator.md, 42_envelope.md) -/

/-- R300: SQUARE, TRIANGLE and SAWTOOTH, each entry exact, and the entries of SINE the rule names. -/
def Obligations.Wavetables : Prop :=
  (∀ i : Nat, i < 4096 →
    B32.val (tableEntry .square i) = (if i < 2048 then 2 ^ 149 else -2 ^ 149) ∧
    1024 * B32.val (tableEntry .triangle i) =
      (if i ≤ 1024 then (i : Int) else if i ≤ 3072 then 2048 - i else (i : Int) - 4096) * 2 ^ 149 ∧
    2048 * B32.val (tableEntry .sawtooth i) = ((i : Int) - 2048) * 2 ^ 149) ∧
  tableEntry .sine 0 = 0 ∧ tableEntry .sine 2048 = 0 ∧ tableEntry .sine 1024 = 0x3F800000#32 ∧
  tableEntry .sine 3072 = 0xBF800000#32 ∧ tableEntry .sine 512 = 0x3F3504F3#32 ∧ tableEntry .sine 1 = 0x3AC90FD5#32

/-- R300, R11: SINE[i] is the binary32 value nearest to sin(2π·i/4096), the argument taken exactly: no binary32 value is
nearer to it. -/
def Obligations.SineTableIsNearest : Prop :=
  ∀ i : Nat, i < 4096 → B32.isFinite (tableEntry .sine i) = true ∧ ∀ x : Word, B32.isFinite x = true →
    |Real.sin (2 * Real.pi * i / 4096) - (B32.val (tableEntry .sine i) : ℝ) / 2 ^ 149| ≤
      |Real.sin (2 * Real.pi * i / 4096) - (B32.val x : ℝ) / 2 ^ 149|

/-- R315, for one oscillator: with a legal phase and amplitude no sample's magnitude exceeds the amplitude, for the four
table waveforms and for Noise, whichever draw the sample takes (the draws' counter is the model's own field,
notes/assumptions/2.md).
(R315 is a property the spec marks as its own inference, "derived: from rules R300, R302 and R303".) -/
def Obligations.OscillatorBound : Prop :=
  ∀ (u : Osc) (k : Nat), PhaseOk u.phase → InRange 0 u.amp 0x3F800000#32 →
    B32.le (B32.abs (oscStep u k).1) (B32.abs u.amp) = true

/-- R302-R304, R310, R352, R400: generating and processing are streaming: a block of m + n samples is a block of m and
then a block of n from the state the first left, each of the length asked for, the Noise draws taken one after the other
(their counter is the model's own field, notes/assumptions/2.md). -/
def Obligations.BlocksAreStreaming : Prop :=
  (∀ (m n k : Nat) (u : Osc),
    (oscGen n u k).1.length = n ∧
    oscGen (m + n) u k =
      ((oscGen m u k).1 ++ (oscGen n (oscGen m u k).2.1 (oscGen m u k).2.2).1,
        (oscGen n (oscGen m u k).2.1 (oscGen m u k).2.2).2)) ∧
  (∀ (m n k : Nat) (u : Poly),
    (polyGen n u k).1.length = n ∧
    polyGen (m + n) u k =
      ((polyGen m u k).1 ++ (polyGen n (polyGen m u k).2.1 (polyGen m u k).2.2).1,
        (polyGen n (polyGen m u k).2.1 (polyGen m u k).2.2).2)) ∧
  (∀ (m n : Nat) (e : Env),
    (envGen n e).1.length = n ∧ (envGen n e).2 = envSteps n e ∧
    envGen (m + n) e = ((envGen m e).1 ++ (envGen n (envGen m e).2).1, (envGen n (envGen m e).2).2)) ∧
  (∀ (s : State) (r : FxRef) (fs gs : List Frame),
    (fxRun s r fs).1.length = fs.length ∧
    fxRun s r (fs ++ gs) = ((fxRun s r fs).1 ++ (fxRun (fxRun s r fs).2 r gs).1, (fxRun (fxRun s r fs).2 r gs).2))

/-- R312, R363: the slot a note takes: its own if it is mapped, else the lowest free one, else slot 0. -/
def Obligations.NoteAllocation : Prop :=
  ∀ (note : Fin 128) (notes : List (Option (Fin 128))), NotesDistinct notes →
    (∀ j : Nat, notes[j]? = some (some note) → noteSlot note notes = j) ∧
    (some note ∉ notes → ∀ j : Nat, notes[j]? = some none → (∀ i : Nat, i < j → notes[i]? ≠ some none) →
      noteSlot note notes = j) ∧
    (some note ∉ notes → none ∉ notes → noteSlot note notes = 0)

/-- R350, R351, R353, R354: the rates, the envelope step in every state and the sample it gives, note_on and note_off; the
level of a legal envelope stays in [0, 1] and its parameters in their ranges. -/
def Obligations.EnvelopeRules : Prop :=
  (∀ e : Env,
     (withRates e = { e with
       attackRate := B32.div 0x3F800000#32 (B32.mul e.attackT (B32.ofNat e.sr.toNat))
       decayRate := B32.div (B32.sub 0x3F800000#32 e.sustain) (B32.mul e.decayT (B32.ofNat e.sr.toNat))
       releaseRate := B32.div 0x3F800000#32 (B32.mul e.releaseT (B32.ofNat e.sr.toNat)) }) ∧
     envGen 1 e = ([(envStep e).level], envStep e) ∧
     (e.state = .idle ∨ e.state = .sustain → envStep e = e) ∧
     (e.state = .attack → envStep e =
       if B32.le 0x3F800000#32 (B32.add e.level e.attackRate) then { e with level := 0x3F800000#32, state := .decay }
       else { e with level := B32.add e.level e.attackRate }) ∧
     (e.state = .decay → envStep e =
       if B32.le (B32.sub e.level e.decayRate) e.sustain then { e with level := e.sustain, state := .sustain }
       else { e with level := B32.sub e.level e.decayRate }) ∧
     (e.state = .release → envStep e =
       if B32.le (B32.sub e.level e.releaseRate) 0 then { e with level := 0, state := .idle }
       else { e with level := B32.sub e.level e.releaseRate }) ∧
     (e.state = .idle → envOn e = { e with level := 0x38D1B717#32, state := .attack }) ∧
     (e.state ≠ .idle → envOn e = { e with state := .attack }) ∧
     envOff e = { e with state := .release }) ∧
  (∀ e : Env, EnvOk e → EnvLegal e → EnvLegal (envStep e) ∧ EnvOk (envStep e))

/-! ## Buffers and effects (43_effects.md, 45_buffers.md) -/

/-- R530, R531: a line of D slots written with a sequence reads at distance d the sample written d steps ago, clamped to
1..D, and +0.0 where fewer have been written; reading has no effect and the cursor stays inside the line. -/
def Obligations.DelayLine : Prop :=
  ∀ (size dist : Nat) (xs : List Word), 1 ≤ size →
    let line := xs.foldl writeSample (newDelayBuf size)
    let d := clampNat dist 1 size
    (1 ≤ d ∧ d ≤ size) ∧ DelayBufOk size line ∧
    readDelayed line dist = if d ≤ xs.length then xs.getD (xs.length - d) 0 else 0

/-- R400: bypassed, a block passes unchanged and the unit keeps its state; otherwise lane 0 serves left samples alone and
lane 1 right samples alone: two runs whose left inputs agree give the same left outputs and the same left lane state,
whatever the right inputs and the right lane state, and the same with the sides exchanged. -/
def Obligations.LanesAndBypass : Prop :=
  (∀ (u : Dly) (fs : List Frame), u.mix.bypass = true → dlyRun u fs = (fs, u)) ∧
  (∀ (u : Flt) (fs : List Frame), u.mix.bypass = true → fltRun u fs = (fs, u)) ∧
  (∀ (u : Rev) (fs : List Frame), u.mix.bypass = true → revRun u fs = (fs, u)) ∧
  (∀ (u : Dly) (lane : DelayBuf) (fs gs : List Frame), fs.map (·.1) = gs.map (·.1) →
    let a := dlyRun u fs
    let b := dlyRun { u with line := { u.line with r := lane } } gs
    a.1.map (·.1) = b.1.map (·.1) ∧ a.2.line.l = b.2.line.l) ∧
  (∀ (u : Dly) (lane : DelayBuf) (fs gs : List Frame), fs.map (·.2) = gs.map (·.2) →
    let a := dlyRun u fs
    let b := dlyRun { u with line := { u.line with l := lane } } gs
    a.1.map (·.2) = b.1.map (·.2) ∧ a.2.line.r = b.2.line.r) ∧
  (∀ (u : Flt) (lane : Hist) (fs gs : List Frame), fs.map (·.1) = gs.map (·.1) →
    let a := fltRun u fs
    let b := fltRun { u with hist := { u.hist with r := lane } } gs
    a.1.map (·.1) = b.1.map (·.1) ∧ a.2.hist.l = b.2.hist.l) ∧
  (∀ (u : Flt) (lane : Hist) (fs gs : List Frame), fs.map (·.2) = gs.map (·.2) →
    let a := fltRun u fs
    let b := fltRun { u with hist := { u.hist with l := lane } } gs
    a.1.map (·.2) = b.1.map (·.2) ∧ a.2.hist.r = b.2.hist.r) ∧
  (∀ (u : Rev) (lane : Taps DelayBuf) (fs gs : List Frame), fs.map (·.1) = gs.map (·.1) →
    let a := revRun u fs
    let b := revRun { u with line := { u.line with r := lane } } gs
    a.1.map (·.1) = b.1.map (·.1) ∧ a.2.line.l = b.2.line.l) ∧
  (∀ (u : Rev) (lane : Taps DelayBuf) (fs gs : List Frame), fs.map (·.2) = gs.map (·.2) →
    let a := revRun u fs
    let b := revRun { u with line := { u.line with l := lane } } gs
    a.1.map (·.2) = b.1.map (·.2) ∧ a.2.line.r = b.2.line.r)

/-- R401, R403, R407, R408, R414: one lane step of a delay, a filter and a reverb, and the coefficients of each filter mode,
each operation rounded in the order written. -/
def Obligations.LaneSteps : Prop :=
  ((∀ (u : Dly) (b : DelayBuf) (x : Word),
     let dv := readDelayed b u.d
     dlyLane u b x = (B32.add (B32.mul u.mix.dry x) (B32.mul u.mix.wet dv), writeSample b (B32.add x (B32.mul u.feedback dv)))) ∧
   (∀ (u : Flt) (h : Hist) (x : Word),
     let y := B32.sub (B32.sub (B32.add (B32.add (B32.mul u.co.b0 x) (B32.mul u.co.b1 h.x1)) (B32.mul u.co.b2 h.x2))
       (B32.mul u.co.a1 h.y1)) (B32.mul u.co.a2 h.y2)
     fltLane u h x = (B32.add (B32.mul u.mix.dry x) (B32.mul u.mix.wet y), ⟨x, h.x1, y, h.y1⟩)) ∧
   (∀ (u : Rev) (ln : Taps DelayBuf) (x : Word),
     let w := 0x3E99999A#32
     let early := B32.add (B32.add (B32.mul w (readDelayed ln.e1 u.d.e1)) (B32.mul w (readDelayed ln.e2 u.d.e2)))
       (B32.mul w (readDelayed ln.e3 u.d.e3))
     let tail := B32.mul u.decay (readDelayed ln.t u.d.t)
     revLane u ln x = (B32.add (B32.mul u.mix.dry x) (B32.mul u.mix.wet (B32.add early tail)),
       ⟨writeSample ln.e1 x, writeSample ln.e2 x, writeSample ln.e3 x, writeSample ln.t (B32.add x tail)⟩))) ∧
  (∀ (cutoff q sr : Word),
     let w0 := B32.div (B32.mul 0x40C90FDB#32 cutoff) (B32.ofNat sr.toNat)
     let cs := Elem.cos32 w0
     let alpha := B32.div (Elem.sin32 w0) (B32.mul 0x40000000#32 q)
     let one := 0x3F800000#32
     let a0 := B32.add one alpha
     let a1 := B32.div (B32.mul 0xC0000000#32 cs) a0
     let a2 := B32.div (B32.sub one alpha) a0
     coeffs .lowpass cutoff q sr =
       ⟨B32.div (B32.div (B32.sub one cs) 0x40000000#32) a0, B32.div (B32.sub one cs) a0,
         B32.div (B32.div (B32.sub one cs) 0x40000000#32) a0, a1, a2⟩ ∧
     coeffs .highpass cutoff q sr =
       ⟨B32.div (B32.div (B32.add one cs) 0x40000000#32) a0, B32.div (B32.neg (B32.add one cs)) a0,
         B32.div (B32.div (B32.add one cs) 0x40000000#32) a0, a1, a2⟩ ∧
     coeffs .bandpass cutoff q sr = ⟨B32.div alpha a0, B32.div 0 a0, B32.div (B32.neg alpha) a0, a1, a2⟩)

/-- R539: from a ring holding nothing, writing n samples of SWIN and reading n back returns them bit for bit, even if the
host overwrote the window in between, with RES0 = n both times and both counters unchanged, for n ≤ min(C - 1, 8192);
writing C samples stores C - 1 and counts one overflow; the same round trip for at most `cap` frames through an empty
FIFO.
(R539 is a property the spec marks as its own inference, "derived: from rules R536 and R537".) -/
def Obligations.RoundTrips : Prop :=
  (∀ (s : State) (r : Ring) (n : Nat), s.ring = some r → r.wpos = r.rpos → r.rpos < r.slots → s.args.a0.toNat = n →
     n ≤ 8192 →
     (n ≤ r.slots - 1 → ∃ t, exec .ringWrite s = .next t ∧ t.err = .ok ∧ t.res = result (BitVec.ofNat 32 n) ∧
       ∀ m : Memory, ∃ u r', exec .ringRead { t with swin := m } = .next u ∧ u.err = .ok ∧
         u.res = result (BitVec.ofNat 32 n) ∧ (∀ i, i < n → u.swin.word i = s.swin.word i) ∧ u.ring = some r' ∧
         r'.wpos = r'.rpos ∧ r'.overflow = r.overflow ∧ r'.underflow = r.underflow) ∧
     (n = r.slots → ∃ t r', exec .ringWrite s = .next t ∧ t.res = result (BitVec.ofNat 32 (r.slots - 1)) ∧
       t.ring = some r' ∧ r'.overflow = satInc r.overflow)) ∧
  (∀ (s : State) (f : Fifo) (n : Nat), s.fifo = some f → f.q = [] → s.args.a0.toNat = n → n ≤ 8192 → n ≤ f.cap →
     ∃ t, exec .fifoWrite s = .next t ∧ t.err = .ok ∧ t.res = result (BitVec.ofNat 32 n) ∧
       ∀ m : Memory, ∃ u, exec .fifoRead { t with swin := m } = .next u ∧ u.err = .ok ∧
         u.res = result (BitVec.ofNat 32 n) ∧ (∀ i, i < 2 * n → u.swin.word i = s.swin.word i) ∧ u.fifo = some f)

/-! ## Mixer (44_channel_mixer.md) -/

/-- R471, R472: a ramp with nothing remaining stays; otherwise n ≥ 1 samples use min(n, rem) of it, and it lands on its
target exactly when nothing remains, so blocks that together ask for at least what remains end on the target; and what
setting a ramp leaves. -/
def Obligations.RampRules : Prop :=
  (∀ (r : Ramp) (n : Nat), 0 < n →
    (r.rem = 0 → rampAdv r n = r) ∧
    (0 < r.rem → (rampAdv r n).rem = r.rem - min n r.rem ∧ (rampAdv r n).tgt = r.tgt ∧ (rampAdv r n).inc = r.inc ∧
      (rampAdv r n).cur = if r.rem - min n r.rem = 0 then r.tgt
        else B32.add r.cur (B32.mul r.inc (B32.ofNat (min n r.rem))))) ∧
  (∀ (r : Ramp) (ns : List Nat), 0 < r.rem → r.rem ≤ ns.sum →
    (ns.foldl rampAdv r).rem = 0 ∧ (ns.foldl rampAdv r).cur = r.tgt) ∧
  (∀ (r : Ramp) (v ms sr : Word) (given : Bool),
    let m := if given then B32.clamp ms 0 0x461C4000#32 else 0x41200000#32
    let len := (B32.roundHalfAway (B32.div (B32.mul m (B32.ofNat sr.toNat)) 0x447A0000#32)).toNat
    rampSet r v ms given sr = if len = 0 then ⟨v, v, 0, 0⟩ else ⟨r.cur, v, len, B32.div (B32.sub v r.cur) (B32.ofNat len)⟩)

/-- R473, R475: a muted channel or one with no source is silent, advances no ramp and pulls nothing; another pulls its
source once and spreads it with the gains after the ramps' advance; the mixer adds the channels in ascending id order to
silence, then applies the master volume and the soft clip. -/
def Obligations.MixRules : Prop :=
  (∀ (s : State) (c : Channel) (n : Nat), c.src = none ∨ c.mute = true → chGen s c n = (silence n, c, s)) ∧
  (∀ (s : State) (c : Channel) (r : SrcRef) (n : Nat), c.src = some r → c.mute = false →
    let vol := rampAdv c.vol n
    let pan := rampAdv c.pan n
    let gL := B32.div (B32.mul vol.cur (B32.sub 0x3F800000#32 pan.cur)) 0x40000000#32
    let gR := B32.div (B32.mul vol.cur (B32.add 0x3F800000#32 pan.cur)) 0x40000000#32
    chGen s c n = ((srcGen s r n).1.map (fun x => (B32.mul x gL, B32.mul x gR)), { c with vol := vol, pan := pan },
      (srcGen s r n).2)) ∧
  (∀ (s : State) (acc : List Frame) (id : Word) (c : Channel) (t : List (Word × Channel)) (n : Nat),
    mixChannels n ((id, c) :: t) acc s =
      let g := chGen s c n
      let rest := mixChannels n t (List.zipWith (fun p q => (B32.add p.1 q.1, B32.add p.2 q.2)) acc g.1) g.2.2
      (rest.1, (id, g.2.1) :: rest.2.1, rest.2.2)) ∧
  (∀ (s : State) (m : Mixer) (n : Nat),
    let sum := mixChannels n m.ch (List.replicate n (0, 0)) s
    mixGen s m n = (sum.1.map (fun f => (softClip (B32.mul f.1 m.master), softClip (B32.mul f.2 m.master))),
      { sum.2.2 with mixer := some { m with ch := sum.2.1 } }))

/-- R486: with no channels and a legal master other than -0.0, a mix of n frames is silence and changes no state.
(R486 is a property the spec marks as its own inference, "derived: from rules R474 and R475".) -/
def Obligations.ZeroChannelSilence : Prop :=
  ∀ (s : State) (m : Mixer) (n : Nat), s.mixer = some m → m.ch = [] → InRange 0 m.master 0x3F800000#32 →
    m.master ≠ 0x80000000#32 → mixGen s m n = (List.replicate n (0, 0), s)

/-- R474, R488: the soft clip's magnitude is at most 1.0, it is 1.0 from |s| = 0x3F7FFDF6 on and below 1.0 for every
smaller |s|, the largest such output being 0x3F7FFFFF, reached at 0x3F7FFDF5; the sign is kept, a magnitude up to 0.95
passes unchanged, and so does a NaN.
(R488 is a property the spec marks as its own inference, "derived: from rule R474".) -/
def Obligations.SoftClipBound : Prop :=
  (∀ x : Word, B32.isNaN x = false →
    B32.le (B32.abs (softClip x)) 0x3F800000#32 = true ∧
    (B32.mag (softClip x) = 0x3F800000 ↔ 0x3F7FFDF6 ≤ B32.mag x) ∧
    (B32.mag x ≤ 0x3F7FFDF5 → B32.mag (softClip x) ≤ 0x3F7FFFFF) ∧
    B32.sign (softClip x) = B32.sign x ∧
    (B32.mag x ≤ 0x3F733333 → softClip x = x)) ∧
  softClip 0x3F7FFDF5#32 = 0x3F7FFFFF#32 ∧
  (∀ x : Word, B32.isNaN x = true → softClip x = x)

/-! ## Frame requests (46_engine.md) -/

/-- R589-R592: a frame request of n frames: nothing for n = 0; else a cpu_load draw, and the error path before an init,
past the buffer size or on a non-finite sample; else the mix through the chain in registration order, written to the
output region with the peak and the latency stored. (Each draw moves
its oracle's counter, the model's own field, notes/assumptions/2.md.) -/
def Obligations.FrameRequests : Prop :=
  ∀ (s : State) (n : Nat),
    let s1 : State :=
      { s with
        eng := { s.eng with cpuload := cpuLoadDraw s.draws.cpuload }
        draws := { s.draws with cpuload := s.draws.cpuload + 1 } }
    let failedFrame (t : State) : State :=
      { t with out := List.replicate (2 * n) 0, eng := { t.eng with underruns := satInc t.eng.underruns, peak := 0 } }
    frameRequest s 0 = s ∧
    (0 < n → s.eng.state = .uninit ∨ s.eng.bufsz.toNat < n → frameRequest s n = failedFrame s1) ∧
    (∀ m, 0 < n → s.eng.state ≠ .uninit → n ≤ s.eng.bufsz.toNat → s.mixer = some m →
      let b := s.chain.foldl (fun p r => fxRun p.2 r p.1) (mixGen s1 m n)
      ((∃ f ∈ b.1, B32.isFinite f.1 = false ∨ B32.isFinite f.2 = false) → frameRequest s n = failedFrame b.2) ∧
      ((∀ f ∈ b.1, B32.isFinite f.1 = true ∧ B32.isFinite f.2 = true) →
        ∃ peak, frameRequest s n =
          { b.2 with
            out := b.1.flatMap (fun f => [f.1, f.2])
            eng := { b.2.eng with
              peak := peak
              latency := B32.mul (B32.div (B32.ofNat b.2.eng.bufsz.toNat) (B32.ofNat b.2.eng.sr.toNat)) 0x447A0000#32 } } ∧
          (∀ f ∈ b.1, B32.mag f.1 ≤ B32.mag peak ∧ B32.mag f.2 ≤ B32.mag peak) ∧ B32.sign peak = false ∧
          (B32.mag peak = 0 ∨ ∃ f ∈ b.1, peak = B32.abs f.1 ∨ peak = B32.abs f.2)))

/-- R590, R594, R645: a frame request touches neither SWIN nor the command port's CMD, ARG, STATUS and RES nor the FIFO, the
ring or the chain, OUT is fully written with 2n words, every one finite, and the request is served the same way in STOPPED
and in RUNNING. -/
def Obligations.FramesKeepCommandSide : Prop :=
  (∀ (s : State) (n : Nat),
     let t := frameRequest s n
     t.swin = s.swin ∧ t.cmd = s.cmd ∧ t.args = s.args ∧ t.err = s.err ∧ t.res = s.res ∧ t.fifo = s.fifo ∧
     t.ring = s.ring ∧ t.chain = s.chain ∧ t.inputs = s.inputs ∧ t.rdata = s.rdata ∧ t.cpBase = s.cpBase ∧
     t.epool = s.epool ∧ t.draws.devok = s.draws.devok ∧
     (0 < n → t.out.length = 2 * n ∧ ∀ w ∈ t.out, B32.isFinite w = true)) ∧
  (∀ (s : State) (n : Nat),
     let put (t : State) (e : EngState) : State := { t with eng := { t.eng with state := e } }
     frameRequest (put s .running) n = put (frameRequest (put s .stopped) n) .running)

/-! ## Commands: creation (46_engine.md R588) -/

/-- R305, R311, R355, R364: the creates of the sources and the envelope pool: their errors, and on success the lowest free
slot, its record at the creation values with ENG.sr latched, and RES0 the handle. -/
def Obligations.CreateSources : Prop :=
  CreateFails .oscCreate (·.osc) ∧ CreateFails .polyCreate (·.poly) ∧ CreateFails .envCreate (·.env) ∧
  CreateFails .epoolCreate (·.epool) ∧
  ∀ (s : State) (k : Nat), s.eng.state ≠ .uninit →
    let sr := s.eng.sr
    let inc := B32.div (B32.mul 0x40C90FDB#32 0x43DC0000#32) (B32.ofNat sr.toNat)
    (LowestFree s.osc k → exec .oscCreate s = .next (done
      { s with osc := s.osc.set k (some ⟨sr, 0x43DC0000#32, inc, 0x3F800000#32, .sine, 0⟩) }
      (result (BitVec.ofNat 32 (0x01000000 + k))))) ∧
    (LowestFree s.poly k → exec .polyCreate s = .next (done
      { s with poly := s.poly.set k (some ⟨sr, .sine, List.replicate 8 ⟨0x43DC0000#32, inc, 0x3F800000#32, 0, none⟩⟩) }
      (result (BitVec.ofNat 32 (0x02000000 + k))))) ∧
    (LowestFree s.env k → exec .envCreate s = .next (done
      { s with env := s.env.set k (some (freshEnv sr)) } (result (BitVec.ofNat 32 (0x03000000 + k))))) ∧
    (LowestFree s.epool k → exec .epoolCreate s = .next (done
      { s with epool := s.epool.set k (some ⟨sr, List.replicate 8 ⟨freshEnv sr, none⟩⟩) }
      (result (BitVec.ofNat 32 (0x04000000 + k)))))

/-- R404, R409, R415: the creates of the effects: their errors, and on success the lowest free slot, its record at the
creation values with ENG.sr latched and its lines silent, and RES0 the handle. -/
def Obligations.CreateEffects : Prop :=
  CreateFails .dlyCreate (·.dly) ∧ CreateFails .fltCreate (·.flt) ∧ CreateFails .revCreate (·.rev) ∧
  ∀ (s : State) (k : Nat), s.eng.state ≠ .uninit →
    let sr := s.eng.sr
    let empty (size : Nat) : DelayBuf := ⟨size, [], 0⟩
    (LowestFree s.dly k → exec .dlyCreate s = .next (done
      { s with dly := s.dly.set k (some
          { sr := sr, time := 0x3DCCCCCD#32, feedback := 0x3E99999A#32, len := dlyLen sr
            d := dlyDist 0x3DCCCCCD#32 sr (dlyLen sr), mix := ⟨0x3F800000#32, 0x3F000000#32, false⟩
            line := ⟨empty (dlyLen sr), empty (dlyLen sr)⟩ }) }
      (result (BitVec.ofNat 32 (0x05000000 + k))))) ∧
    (LowestFree s.flt k → exec .fltCreate s = .next (done
      { s with flt := s.flt.set k (some
          { sr := sr, mode := .lowpass, cutoff := 0x447A0000#32, q := 0x3F3504F3#32
            co := coeffs .lowpass 0x447A0000#32 0x3F3504F3#32 sr, mix := ⟨0, 0x3F800000#32, false⟩
            hist := ⟨⟨0, 0, 0, 0⟩, ⟨0, 0, 0, 0⟩⟩ }) }
      (result (BitVec.ofNat 32 (0x06000000 + k))))) ∧
    (LowestFree s.rev k → exec .revCreate s = .next (done
      { s with rev := s.rev.set k (some
          { sr := sr, room := 0x3F000000#32, decay := 0x3F000000#32, len := revLens sr
            d := revDists 0x3F000000#32 sr (revLens sr), mix := ⟨0x3F800000#32, 0x3E99999A#32, false⟩
            line := ⟨⟨empty (revLens sr).e1, empty (revLens sr).e2, empty (revLens sr).e3, empty (revLens sr).t⟩,
              ⟨empty (revLens sr).e1, empty (revLens sr).e2, empty (revLens sr).e3, empty (revLens sr).t⟩⟩ }) }
      (result (BitVec.ofNat 32 (0x07000000 + k)))))

/-- R402, R413: the geometry of a delay and of a reverb at a rate of the engine's range: L = sr, the delay's distance, and
the length and distance of each reverb line from its base; every distance lies between 1 and its line's length, and at
room 1 the distances are the lengths. -/
def Obligations.EffectGeometry : Prop :=
  ∀ sr : Word, RateOk sr →
    let lineLen (base : Word) : Nat :=
      (B32.roundHalfAway (B32.mul (B32.mul base 0x40400000#32) (B32.ofNat sr.toNat))).toNat
    dlyLen sr = sr.toNat ∧
    (∀ t, InRange 0 t 0x3F800000#32 →
      1 ≤ dlyDist t sr (dlyLen sr) ∧ dlyDist t sr (dlyLen sr) ≤ dlyLen sr ∧
      (B32.roundHalfAway (B32.mul t (B32.ofNat sr.toNat)) ≤ 1 → dlyDist t sr (dlyLen sr) = 1) ∧
      (1 ≤ B32.roundHalfAway (B32.mul t (B32.ofNat sr.toNat)) →
        (dlyDist t sr (dlyLen sr) : Int) = B32.roundHalfAway (B32.mul t (B32.ofNat sr.toNat)))) ∧
    revLens sr = ⟨lineLen 0x3CF5C28F#32, lineLen 0x3D3851EC#32, lineLen 0x3D75C28F#32, lineLen 0x3DCCCCCD#32⟩ ∧
    (1 ≤ (revLens sr).e1 ∧ 1 ≤ (revLens sr).e2 ∧ 1 ≤ (revLens sr).e3 ∧ 1 ≤ (revLens sr).t) ∧
    (∀ (room : Word) (len : Taps Nat),
      let sc := B32.add 0x3F800000#32 (B32.mul 0x40000000#32 room)
      let dist (base : Word) (n : Nat) : Nat :=
        let x := (B32.roundHalfAway (B32.mul (B32.mul base sc) (B32.ofNat sr.toNat))).toNat
        if x < 1 then 1 else if n < x then n else x
      revDists room sr len = ⟨dist 0x3CF5C28F#32 len.e1, dist 0x3D3851EC#32 len.e2, dist 0x3D75C28F#32 len.e3,
        dist 0x3DCCCCCD#32 len.t⟩) ∧
    revDists 0x3F800000#32 sr (revLens sr) = revLens sr ∧
    (∀ r, InRange 0 r 0x3F800000#32 →
      let d := revDists r sr (revLens sr)
      (1 ≤ d.e1 ∧ d.e1 ≤ (revLens sr).e1) ∧ (1 ≤ d.e2 ∧ d.e2 ≤ (revLens sr).e2) ∧
      (1 ≤ d.e3 ∧ d.e3 ≤ (revLens sr).e3) ∧ (1 ≤ d.t ∧ d.t ≤ (revLens sr).t))

/-! ## Commands: oscillators (41_oscillator.md) -/

/-- R301, R306-R308: the setters of an oscillator: errors, and on success the clamped value alone, with the increment of a
new frequency; phase and every other part of the state are kept. -/
def Obligations.OscSetters : Prop :=
  (decode 0x11#32 = .ok .oscSetFreq ∧ decode 0x12#32 = .ok .oscSetAmp ∧ decode 0x13#32 = .ok .oscSetWave) ∧
  NeedsHandle .oscSetFreq [.osc] ∧ NeedsHandle .oscSetAmp [.osc] ∧ NeedsHandle .oscSetWave [.osc] ∧
  RefusesArg .oscSetFreq [.osc] (fun s => B32.isNaN s.args.a1 = true) ∧
  RefusesArg .oscSetAmp [.osc] (fun s => B32.isNaN s.args.a1 = true) ∧
  RefusesArg .oscSetWave [.osc] (fun s => 4 < s.args.a1.toNat) ∧
  ∀ (s : State) (k : Nat) (u : Osc), HandleNames s s.args.a0 .osc k → s.osc[k]? = some (some u) →
    let f := B32.clamp s.args.a1 0x41A00000#32 0x469C4000#32
    (B32.isNaN s.args.a1 = false → exec .oscSetFreq s = .next (done
      { s with osc := s.osc.set k (some { u with
          freq := f, inc := B32.div (B32.mul 0x40C90FDB#32 f) (B32.ofNat u.sr.toNat) }) } noResult)) ∧
    (B32.isNaN s.args.a1 = false → exec .oscSetAmp s = .next (done
      { s with osc := s.osc.set k (some { u with amp := B32.clamp s.args.a1 0 0x3F800000#32 }) } noResult)) ∧
    (∀ w : Wave, s.args.a1.toNat = waveNumber w → exec .oscSetWave s = .next (done
      { s with osc := s.osc.set k (some { u with wave := w }) } noResult))

/-- R309, R312-R314: the notes and the waveform of a polyphonic oscillator: errors, and on success the voice the note
takes or leaves, everything else kept. -/
def Obligations.PolyCommands : Prop :=
  (decode 0x19#32 = .ok .polyNoteOn ∧ decode 0x1A#32 = .ok .polyNoteOff ∧ decode 0x1B#32 = .ok .polySetWave) ∧
  NeedsHandle .polyNoteOn [.poly] ∧ NeedsHandle .polyNoteOff [.poly] ∧ NeedsHandle .polySetWave [.poly] ∧
  RefusesArg .polyNoteOn [.poly] (fun s => 127 < s.args.a1.toNat) ∧
  RefusesArg .polyNoteOff [.poly] (fun s => 127 < s.args.a1.toNat) ∧
  RefusesArg .polySetWave [.poly] (fun s => 4 < s.args.a1.toNat) ∧
  ∀ (s : State) (k : Nat) (u : Poly), HandleNames s s.args.a0 .poly k → s.poly[k]? = some (some u) →
    let notes := u.voice.map (·.note)
    (∀ note : Fin 128, s.args.a1.toNat = note.val →
      let j := noteSlot note notes
      let midi := B32.mul 0x43DC0000#32 (Elem.exp2_32 (B32.div (B32.ofInt ((note.val : Int) - 69)) 0x41400000#32))
      let f := B32.clamp midi 0x41A00000#32 0x469C4000#32
      exec .polyNoteOn s = .next (done
        { s with poly := s.poly.set k (some { u with voice := u.voice.modify j (fun v =>
            { v with
              note := some note, freq := f, inc := B32.div (B32.mul 0x40C90FDB#32 f) (B32.ofNat u.sr.toNat)
              amp := B32.div (B32.ofNat (min s.args.a2.toNat 127)) 0x42FE0000#32 }) }) }
        (result (BitVec.ofNat 32 j)))) ∧
    (∀ (note : Fin 128) (j : Nat), s.args.a1.toNat = note.val → NotesDistinct notes → notes[j]? = some (some note) →
      exec .polyNoteOff s = .next (done
        { s with poly := s.poly.set k (some { u with voice := u.voice.modify j (fun v => { v with note := none }) }) }
        (result 1))) ∧
    (∀ note : Fin 128, s.args.a1.toNat = note.val → some note ∉ notes →
      exec .polyNoteOff s = .next (done s (result 0))) ∧
    (∀ w : Wave, s.args.a1.toNat = waveNumber w → exec .polySetWave s = .next (done
      { s with poly := s.poly.set k (some { u with wave := w }) } noResult))

/-! ## Commands: envelopes (42_envelope.md) -/

/-- R356-R362: the setters of an envelope: errors, and on success the clamped parameter and the three rates (R350), state,
level and everything else kept; note_on, note_off and the read of an envelope. -/
def Obligations.EnvCommands : Prop :=
  ((decode 0x21#32 = .ok .envSetAttack ∧ decode 0x22#32 = .ok .envSetDecay ∧ decode 0x23#32 = .ok .envSetSustain ∧
     decode 0x24#32 = .ok .envSetRelease) ∧
   (∀ i ∈ [Instr.envSetAttack, .envSetDecay, .envSetSustain, .envSetRelease],
     NeedsHandle i [.env] ∧ RefusesArg i [.env] (fun s => B32.isNaN s.args.a1 = true)) ∧
   ∀ (s : State) (k : Nat) (e : Env), HandleNames s s.args.a0 .env k → s.env[k]? = some (some e) →
     B32.isNaN s.args.a1 = false →
     let time := B32.clamp s.args.a1 0x3A83126F#32 0x40A00000#32
     let put (e' : Env) : State := done { s with env := s.env.set k (some (withRates e')) } noResult
     exec .envSetAttack s = .next (put { e with attackT := time }) ∧
     exec .envSetDecay s = .next (put { e with decayT := time }) ∧
     exec .envSetSustain s = .next (put { e with sustain := B32.clamp s.args.a1 0 0x3F800000#32 }) ∧
     exec .envSetRelease s = .next (put { e with releaseT := time })) ∧
  ((decode 0x25#32 = .ok .envNoteOn ∧ decode 0x26#32 = .ok .envNoteOff ∧ decode 0x27#32 = .ok .envGet) ∧
   NeedsHandle .envNoteOn [.env] ∧ NeedsHandle .envNoteOff [.env] ∧ NeedsHandle .envGet [.env] ∧
   ∀ (s : State) (k : Nat) (e : Env), HandleNames s s.args.a0 .env k → s.env[k]? = some (some e) →
     exec .envNoteOn s = .next (done { s with env := s.env.set k (some { e with
       level := if e.state = .idle then 0x38D1B717#32 else e.level, state := .attack }) } noResult) ∧
     exec .envNoteOff s = .next (done { s with env := s.env.set k (some { e with state := .release }) } noResult) ∧
     exec .envGet s = .next (done s ⟨e.level,
       match e.state with | .idle => 0 | .attack => 1 | .decay => 2 | .sustain => 3 | .release => 4, 0, 0, 0, 0⟩))

/-- R365-R369: the notes of an envelope pool, its members set and advanced alike, and a member read: errors, and on success
the members the rules name. -/
def Obligations.EpoolCommands : Prop :=
  ((decode 0x29#32 = .ok .epoolNoteOn ∧ decode 0x2A#32 = .ok .epoolNoteOff) ∧
   NeedsHandle .epoolNoteOn [.epool] ∧ NeedsHandle .epoolNoteOff [.epool] ∧
   RefusesArg .epoolNoteOn [.epool] (fun s => 127 < s.args.a1.toNat) ∧
   RefusesArg .epoolNoteOff [.epool] (fun s => 127 < s.args.a1.toNat) ∧
   ∀ (s : State) (k : Nat) (p : EPool) (note : Fin 128), HandleNames s s.args.a0 .epool k →
     s.epool[k]? = some (some p) → s.args.a1.toNat = note.val →
     let notes := p.member.map (·.note)
     exec .epoolNoteOn s = .next (done
       { s with epool := s.epool.set k (some { p with
           member := p.member.modify (noteSlot note notes) (fun m => { env := envOn m.env, note := some note }) }) }
       (result (BitVec.ofNat 32 (noteSlot note notes)))) ∧
     (∀ j : Nat, NotesDistinct notes → notes[j]? = some (some note) → exec .epoolNoteOff s = .next (done
       { s with epool := s.epool.set k (some { p with
           member := p.member.modify j (fun m => { env := envOff m.env, note := none }) }) } (result 1))) ∧
     (some note ∉ notes → exec .epoolNoteOff s = .next (done s (result 0)))) ∧
  ((decode 0x2B#32 = .ok .epoolSet ∧ decode 0x2C#32 = .ok .epoolAdvance ∧ decode 0x2D#32 = .ok .epoolGet) ∧
   NeedsHandle .epoolSet [.epool] ∧ NeedsHandle .epoolAdvance [.epool] ∧ NeedsHandle .epoolGet [.epool] ∧
   RefusesArg .epoolSet [.epool] (fun s => 3 < s.args.a1.toNat ∨ B32.isNaN s.args.a2 = true) ∧
   RefusesArg .epoolAdvance [.epool] (fun s => 8192 < s.args.a1.toNat) ∧
   RefusesArg .epoolGet [.epool] (fun s => 7 < s.args.a1.toNat) ∧
   ∀ (s : State) (k : Nat) (p : EPool), HandleNames s s.args.a0 .epool k → s.epool[k]? = some (some p) →
     let v := s.args.a2
     let all (f : Env → Env) : State :=
       done { s with epool := s.epool.set k (some { p with member := p.member.map (fun m => { m with env := f m.env }) }) }
         noResult
     (B32.isNaN v = false →
       (s.args.a1.toNat = 0 → exec .epoolSet s = .next (all (fun e =>
         withRates { e with attackT := B32.clamp v 0x3A83126F#32 0x40A00000#32 }))) ∧
       (s.args.a1.toNat = 1 → exec .epoolSet s = .next (all (fun e =>
         withRates { e with decayT := B32.clamp v 0x3A83126F#32 0x40A00000#32 }))) ∧
       (s.args.a1.toNat = 2 → exec .epoolSet s = .next (all (fun e =>
         withRates { e with sustain := B32.clamp v 0 0x3F800000#32 }))) ∧
       (s.args.a1.toNat = 3 → exec .epoolSet s = .next (all (fun e =>
         withRates { e with releaseT := B32.clamp v 0x3A83126F#32 0x40A00000#32 })))) ∧
     (s.args.a1.toNat ≤ 8192 → exec .epoolAdvance s = .next (all (fun e => Nat.repeat envStep s.args.a1.toNat e))) ∧
     (∀ m, p.member[s.args.a1.toNat]? = some m → s.args.a1.toNat ≤ 7 → exec .epoolGet s = .next (done s ⟨m.env.level,
       match m.env.state with | .idle => 0 | .attack => 1 | .decay => 2 | .sustain => 3 | .release => 4,
       match m.note with | none => 0xFFFFFFFF#32 | some n => BitVec.ofNat 32 n.val, 0, 0, 0⟩)))

/-! ## Commands: effects (43_effects.md) -/

/-- R405, R406, R416, R417: the setters of a delay and of a reverb: errors, and on success the clamped parameter and the
distances that follow from it; lengths, contents and cursors are kept. -/
def Obligations.DelayAndReverbSetters : Prop :=
  (decode 0x31#32 = .ok .dlySetTime ∧ decode 0x32#32 = .ok .dlySetFeedback ∧ decode 0x38#32 = .ok .revSetRoom ∧
    decode 0x39#32 = .ok .revSetDecay) ∧
  (∀ i ∈ [Instr.dlySetTime, .dlySetFeedback],
    NeedsHandle i [.dly] ∧ RefusesArg i [.dly] (fun s => B32.isNaN s.args.a1 = true)) ∧
  (∀ i ∈ [Instr.revSetRoom, .revSetDecay],
    NeedsHandle i [.rev] ∧ RefusesArg i [.rev] (fun s => B32.isNaN s.args.a1 = true)) ∧
  ∀ (s : State) (k : Nat), B32.isNaN s.args.a1 = false →
    let unit := B32.clamp s.args.a1 0 0x3F800000#32
    let gain := B32.clamp s.args.a1 0 0x3F733333#32
    (∀ u : Dly, HandleNames s s.args.a0 .dly k → s.dly[k]? = some (some u) →
      exec .dlySetTime s = .next (done { s with dly := s.dly.set k (some { u with
        time := unit
        d := clampNat (B32.roundHalfAway (B32.mul unit (B32.ofNat u.sr.toNat))).toNat 1 u.len }) } noResult) ∧
      exec .dlySetFeedback s = .next (done { s with dly := s.dly.set k (some { u with feedback := gain }) } noResult)) ∧
    (∀ u : Rev, HandleNames s s.args.a0 .rev k → s.rev[k]? = some (some u) →
      let sc := B32.add 0x3F800000#32 (B32.mul 0x40000000#32 unit)
      let dist (base : Word) (len : Nat) : Nat :=
        clampNat (B32.roundHalfAway (B32.mul (B32.mul base sc) (B32.ofNat u.sr.toNat))).toNat 1 len
      exec .revSetRoom s = .next (done { s with rev := s.rev.set k (some { u with
        room := unit
        d := ⟨dist 0x3CF5C28F#32 u.len.e1, dist 0x3D3851EC#32 u.len.e2, dist 0x3D75C28F#32 u.len.e3,
          dist 0x3DCCCCCD#32 u.len.t⟩ }) } noResult) ∧
      exec .revSetDecay s = .next (done { s with rev := s.rev.set k (some { u with decay := gain }) } noResult))

/-- R410-R412: the setters of a filter: errors, and on success the parameter and the coefficients of R407; the lanes'
history is kept. -/
def Obligations.FilterSetters : Prop :=
  (decode 0x34#32 = .ok .fltSetMode ∧ decode 0x35#32 = .ok .fltSetCutoff ∧ decode 0x36#32 = .ok .fltSetQ) ∧
  NeedsHandle .fltSetMode [.flt] ∧ NeedsHandle .fltSetCutoff [.flt] ∧ NeedsHandle .fltSetQ [.flt] ∧
  RefusesArg .fltSetMode [.flt] (fun s => 2 < s.args.a1.toNat) ∧
  RefusesArg .fltSetCutoff [.flt] (fun s => B32.isNaN s.args.a1 = true) ∧
  RefusesArg .fltSetQ [.flt] (fun s => B32.isNaN s.args.a1 = true) ∧
  ∀ (s : State) (k : Nat) (u : Flt), HandleNames s s.args.a0 .flt k → s.flt[k]? = some (some u) →
    let put (mode : FilterMode) (cutoff q : Word) : State :=
      done { s with flt := s.flt.set k (some { u with
        mode := mode, cutoff := cutoff, q := q, co := coeffs mode cutoff q u.sr }) } noResult
    (∀ mode : FilterMode, s.args.a1.toNat = modeNumber mode → exec .fltSetMode s = .next (put mode u.cutoff u.q)) ∧
    (B32.isNaN s.args.a1 = false →
      exec .fltSetCutoff s = .next (put u.mode (B32.clamp s.args.a1 0x41A00000#32 0x469C4000#32) u.q) ∧
      exec .fltSetQ s = .next (put u.mode u.cutoff (B32.clamp s.args.a1 0x3DCCCCCD#32 0x41200000#32)))

/-- R418-R421: dry, wet and bypass of an effect of any kind: errors, and on success the one field of the unit the handle
names; FX_PROCESS runs n frames of SWIN through the effect, whatever they hold, and writes them back. -/
def Obligations.EffectCommands : Prop :=
  ((decode 0x3A#32 = .ok .fxSetDry ∧ decode 0x3B#32 = .ok .fxSetWet ∧ decode 0x3C#32 = .ok .fxSetBypass) ∧
   (∀ i ∈ [Instr.fxSetDry, .fxSetWet, .fxSetBypass], NeedsHandle i [.dly, .flt, .rev]) ∧
   (∀ i ∈ [Instr.fxSetDry, .fxSetWet], RefusesArg i [.dly, .flt, .rev] (fun s => B32.isNaN s.args.a1 = true)) ∧
   RefusesArg .fxSetBypass [.dly, .flt, .rev] (fun s => 1 < s.args.a1.toNat) ∧
   ∀ (s : State) (k : Nat),
     let unit := B32.clamp s.args.a1 0 0x3F800000#32
     let put (i : Instr) (f : FxMix → FxMix) : Prop :=
       (∀ u : Dly, HandleNames s s.args.a0 .dly k → s.dly[k]? = some (some u) →
         exec i s = .next (done { s with dly := s.dly.set k (some { u with mix := f u.mix }) } noResult)) ∧
       (∀ u : Flt, HandleNames s s.args.a0 .flt k → s.flt[k]? = some (some u) →
         exec i s = .next (done { s with flt := s.flt.set k (some { u with mix := f u.mix }) } noResult)) ∧
       (∀ u : Rev, HandleNames s s.args.a0 .rev k → s.rev[k]? = some (some u) →
         exec i s = .next (done { s with rev := s.rev.set k (some { u with mix := f u.mix }) } noResult))
     (B32.isNaN s.args.a1 = false → put .fxSetDry (fun m => { m with dry := unit })) ∧
     (B32.isNaN s.args.a1 = false → put .fxSetWet (fun m => { m with wet := unit })) ∧
     (s.args.a1.toNat = 0 → put .fxSetBypass (fun m => { m with bypass := false })) ∧
     (s.args.a1.toNat = 1 → put .fxSetBypass (fun m => { m with bypass := true }))) ∧
  (decode 0x3D#32 = .ok .fxProcess ∧
   NeedsHandle .fxProcess [.dly, .flt, .rev] ∧
   RefusesArg .fxProcess [.dly, .flt, .rev] (fun s => 8192 < s.args.a1.toNat) ∧
   ∀ (s : State) (k n : Nat), s.args.a1.toNat = n → n ≤ 8192 →
     let fs : List Frame := (List.range n).map (fun i => (s.swin.word (2 * i), s.swin.word (2 * i + 1)))
     (∀ u : Dly, HandleNames s s.args.a0 .dly k → s.dly[k]? = some (some u) →
       exec .fxProcess s = .next (done { s with
         dly := s.dly.set k (some (dlyRun u fs).2), swin := s.swin.setWords 0 (interleave (dlyRun u fs).1) } noResult)) ∧
     (∀ u : Flt, HandleNames s s.args.a0 .flt k → s.flt[k]? = some (some u) →
       exec .fxProcess s = .next (done { s with
         flt := s.flt.set k (some (fltRun u fs).2), swin := s.swin.setWords 0 (interleave (fltRun u fs).1) } noResult)) ∧
     (∀ u : Rev, HandleNames s s.args.a0 .rev k → s.rev[k]? = some (some u) →
       exec .fxProcess s = .next (done { s with
         rev := s.rev.set k (some (revRun u fs).2), swin := s.swin.setWords 0 (interleave (revRun u fs).1) } noResult)))

/-! ## Commands: mixer and channels (44_channel_mixer.md) -/

/-- R476-R478: adding and removing a channel and connecting a source: errors, and on success the one entry of the map. -/
def Obligations.ChannelMap : Prop :=
  (decode 0x40#32 = .ok .mixAddChannel ∧ decode 0x41#32 = .ok .mixRemoveChannel ∧ decode 0x42#32 = .ok .chConnect) ∧
  (∀ s : State, s.mixer = none →
    exec .mixAddChannel s = .next (failed s .notInit 0xFFFFFFFF#32) ∧
    exec .mixRemoveChannel s = .next (failed s .notInit 0) ∧ exec .chConnect s = .next (failed s .notInit 0)) ∧
  ∀ (s : State) (m : Mixer), s.mixer = some m → m.ch.Pairwise (fun p q => p.1 ≠ q.1) →
    (m.ch.length = 8 ∨ m.nextId = 0xFFFFFFFF#32 → exec .mixAddChannel s = .next (failed s .poolFull 0xFFFFFFFF#32)) ∧
    (m.ch.length ≠ 8 → m.nextId ≠ 0xFFFFFFFF#32 → exec .mixAddChannel s = .next (done
      { s with mixer := some { m with
          nextId := m.nextId + 1
          ch := m.ch ++ [(m.nextId, ⟨none, ⟨0x3F800000#32, 0x3F800000#32, 0, 0⟩, ⟨0, 0, 0, 0⟩, false⟩)] } }
      (result m.nextId))) ∧
    ((∀ c, (s.args.a0, c) ∉ m.ch) → exec .mixRemoveChannel s = .next (failed s .badHandle 0)) ∧
    (∀ c, (s.args.a0, c) ∈ m.ch → exec .mixRemoveChannel s = .next (done
      { s with mixer := some { m with ch := m.ch.filter (fun p => p.1 != s.args.a0) } } (result 1))) ∧
    (BadHandle s s.args.a0 [.osc, .poly, .env] → exec .chConnect s = .next (failed s .badHandle 0)) ∧
    (∀ r : SrcRef, s.args.a0 = srcHandle r → r.live s →
      ((∀ c, (s.args.a1, c) ∉ m.ch) → exec .chConnect s = .next (failed s .badHandle 0)) ∧
      (∀ c, (s.args.a1, c) ∈ m.ch → exec .chConnect s = .next (done
        { s with mixer := some { m with
            ch := m.ch.map (fun p => if p.1 = s.args.a1 then (p.1, { p.2 with src := some r }) else p) } } (result 1))))

/-- R479-R482: volume, pan, mute and master: errors in their order, and on success the one field; a ramp is set by R472,
ARG2 is read only with RAMP_GIVEN = 1. -/
def Obligations.ChannelSetters : Prop :=
  (decode 0x43#32 = .ok .chSetVolume ∧ decode 0x44#32 = .ok .chSetPan ∧ decode 0x45#32 = .ok .chSetMute ∧
    decode 0x46#32 = .ok .mixSetMaster) ∧
  (∀ (s : State), s.mixer = none → ∀ i ∈ [Instr.chSetVolume, .chSetPan, .chSetMute, .mixSetMaster],
    exec i s = .next (failed s .notInit 0)) ∧
  ∀ (s : State) (m : Mixer), s.mixer = some m → m.ch.Pairwise (fun p q => p.1 ≠ q.1) →
    let put (f : Channel → Channel) : State :=
      done { s with mixer := some { m with ch := m.ch.map (fun p => if p.1 = s.args.a0 then (p.1, f p.2) else p) } }
        noResult
    ((∀ c, (s.args.a0, c) ∉ m.ch) → ∀ i ∈ [Instr.chSetVolume, .chSetPan, .chSetMute],
      exec i s = .next (failed s .badHandle 0)) ∧
    (∀ c, (s.args.a0, c) ∈ m.ch →
      (B32.isNaN s.args.a1 = true ∨ 1 < s.args.a3.toNat ∨ (s.args.a3 = 1 ∧ B32.isNaN s.args.a2 = true) →
        ∀ i ∈ [Instr.chSetVolume, .chSetPan], exec i s = .next (failed s .badArg 0)) ∧
      (B32.isNaN s.args.a1 = false → s.args.a3 = 0 ∨ (s.args.a3 = 1 ∧ B32.isNaN s.args.a2 = false) →
        let given := decide (s.args.a3 = 1)
        exec .chSetVolume s = .next (put (fun c =>
          { c with vol := rampSet c.vol (B32.clamp s.args.a1 0 0x40000000#32) s.args.a2 given s.eng.sr })) ∧
        exec .chSetPan s = .next (put (fun c =>
          { c with pan := rampSet c.pan (B32.clamp s.args.a1 0xBF800000#32 0x3F800000#32) s.args.a2 given s.eng.sr }))) ∧
      (1 < s.args.a1.toNat → exec .chSetMute s = .next (failed s .badArg 0)) ∧
      (s.args.a1 = 0 → exec .chSetMute s = .next (put (fun c => { c with mute := false }))) ∧
      (s.args.a1 = 1 → exec .chSetMute s = .next (put (fun c => { c with mute := true })))) ∧
    (B32.isNaN s.args.a0 = true → exec .mixSetMaster s = .next (failed s .badArg 0)) ∧
    (B32.isNaN s.args.a0 = false → exec .mixSetMaster s = .next (done
      { s with mixer := some { m with master := B32.clamp s.args.a0 0 0x3F800000#32 } } noResult))

/-- R470, R483, R484: MIX_GENERATE and SRC_GENERATE: errors, and on success the samples to SWIN from word 0 on, the
sources and ramps advanced, everything else kept but the NOISE draws' counter, the model's own field
(notes/assumptions/2.md). -/
def Obligations.Generate : Prop :=
  (decode 0x47#32 = .ok .mixGenerate ∧ decode 0x48#32 = .ok .srcGenerate) ∧
  (∀ s : State, s.mixer = none → exec .mixGenerate s = .next (failed s .notInit 0)) ∧
  (∀ (s : State) (m : Mixer), s.mixer = some m →
    (8192 < s.args.a0.toNat → exec .mixGenerate s = .next (failed s .badArg 0)) ∧
    (s.args.a0.toNat ≤ 8192 →
      let g := mixGen s m s.args.a0.toNat
      exec .mixGenerate s = .next (done { g.2 with swin := s.swin.setWords 0 (interleave g.1) } noResult))) ∧
  NeedsHandle .srcGenerate [.osc, .poly, .env] ∧
  RefusesArg .srcGenerate [.osc, .poly, .env] (fun s => 8192 < s.args.a1.toNat) ∧
  ∀ (s : State) (k n : Nat), s.args.a1.toNat = n → n ≤ 8192 →
    (∀ u : Osc, HandleNames s s.args.a0 .osc k → s.osc[k]? = some (some u) →
      let g := oscGen n u s.draws.noise
      exec .srcGenerate s = .next (done { s with
        osc := s.osc.set k (some g.2.1), draws := { s.draws with noise := g.2.2 }, swin := s.swin.setWords 0 g.1 }
        noResult)) ∧
    (∀ u : Poly, HandleNames s s.args.a0 .poly k → s.poly[k]? = some (some u) →
      let g := polyGen n u s.draws.noise
      exec .srcGenerate s = .next (done { s with
        poly := s.poly.set k (some g.2.1), draws := { s.draws with noise := g.2.2 }, swin := s.swin.setWords 0 g.1 }
        noResult)) ∧
    (∀ e : Env, HandleNames s s.args.a0 .env k → s.env[k]? = some (some e) →
      exec .srcGenerate s = .next (done { s with
        env := s.env.set k (some (envGen n e).2), swin := s.swin.setWords 0 (envGen n e).1 } noResult))

/-- R302, R303, R310: one table read, one oscillator sample and one polyphonic sample, as the rules write them. A Noise
sample takes the next draw, at a counter that is the model's own field (notes/assumptions/2.md): the voices of a
polyphonic oscillator take one each, in ascending order. -/
def Obligations.SampleSteps : Prop :=
  (∀ (w : Wave) (p : Word),
    let idx := B32.mul (B32.div p 0x40C90FDB#32) 0x45800000#32
    let i0 := (B32.floor idx % 4096).toNat
    let fr := B32.sub idx (B32.ofInt (B32.floor idx))
    let t0 := tableEntry w i0
    let t1 := tableEntry w ((i0 + 1) % 4096)
    tableRead w p = B32.add t0 (B32.mul fr (B32.sub t1 t0))) ∧
  (∀ (u : Osc) (k : Nat),
    let next : Osc := { u with phase := B32.fmod (B32.add u.phase u.inc) 0x40C90FDB#32 }
    (u.wave ≠ .noise → oscStep u k = (B32.mul u.amp (tableRead u.wave u.phase), next, k)) ∧
    (u.wave = .noise → oscStep u k = (B32.mul u.amp (noiseDraw k), next, k + 1))) ∧
  (∀ (u : Poly) (k : Nat), (∀ v ∈ u.voice, v.note = none) → polyStep u k = (0, u, k)) ∧
  (∀ (u : Poly) (k : Nat), (∃ v ∈ u.voice, v.note ≠ none) → u.wave ≠ .noise →
    let mapped := u.voice.filter (fun v => v.note.isSome)
    let sum := mapped.foldl (fun acc v => B32.add acc (B32.mul v.amp (tableRead u.wave v.phase))) 0
    polyStep u k = (B32.div sum (B32.ofNat mapped.length),
      { u with voice := u.voice.map (fun v =>
          if v.note.isSome then { v with phase := B32.fmod (B32.add v.phase v.inc) 0x40C90FDB#32 } else v) }, k)) ∧
  (∀ (u : Poly) (k : Nat), (∃ v ∈ u.voice, v.note ≠ none) → u.wave = .noise →
    let mapped := u.voice.filter (fun v => v.note.isSome)
    let sum := mapped.zipIdx.foldl (fun acc p => B32.add acc (B32.mul p.1.amp (noiseDraw (k + p.2)))) 0
    polyStep u k = (B32.div sum (B32.ofNat mapped.length),
      { u with voice := u.voice.map (fun v =>
          if v.note.isSome then { v with phase := B32.fmod (B32.add v.phase v.inc) 0x40C90FDB#32 } else v) },
      k + mapped.length))

/-! ## Commands: FIFO and ring (45_buffers.md) -/

/-- R532-R535: the FIFO commands: errors, and on success what is stored, moved and counted. -/
def Obligations.FifoCommands : Prop :=
  (decode 0x50#32 = .ok .fifoWrite ∧ decode 0x51#32 = .ok .fifoRead ∧ decode 0x52#32 = .ok .fifoPeek ∧
    decode 0x53#32 = .ok .fifoMetrics) ∧
  (∀ s : State, s.fifo = none → ∀ i ∈ [Instr.fifoWrite, .fifoRead, .fifoPeek, .fifoMetrics],
    exec i s = .next (failed s .notInit 0)) ∧
  ∀ (s : State) (f : Fifo) (n : Nat), s.fifo = some f → s.args.a0.toNat = n →
    (8192 < n → ∀ i ∈ [Instr.fifoWrite, .fifoRead, .fifoPeek], exec i s = .next (failed s .badArg 0)) ∧
    (n ≤ 8192 →
      let k := min n (f.cap - f.q.length)
      exec .fifoWrite s = .next (done { s with fifo := some { f with
          q := f.q ++ (List.range k).map (fun i => (s.swin.word (2 * i), s.swin.word (2 * i + 1)))
          overflow := if k < n then satInc f.overflow else f.overflow } } (result (BitVec.ofNat 32 k)))) ∧
    (n ≤ 8192 →
      let k := min n f.q.length
      let out : List Frame := f.q.take k ++ List.replicate (n - k) (0, 0)
      exec .fifoRead s = .next (done { s with
        fifo := some { f with q := f.q.drop k, underflow := if k < n then satInc f.underflow else f.underflow }
        swin := s.swin.setWords 0 (interleave out) } (result (BitVec.ofNat 32 k))) ∧
      exec .fifoPeek s = .next (done { s with swin := s.swin.setWords 0 (interleave out) }
        (result (BitVec.ofNat 32 k)))) ∧
    exec .fifoMetrics s = .next (done s ⟨BitVec.ofNat 32 f.q.length, BitVec.ofNat 32 f.cap, f.overflow, f.underflow,
      B32.div (B32.ofNat f.q.length) (B32.ofNat f.cap), 0⟩)

/-- R536-R538: the ring commands: errors, and on success what is stored at the write cursor, moved from the read cursor
and counted; a read leaves the slots as they are. -/
def Obligations.RingCommands : Prop :=
  (decode 0x54#32 = .ok .ringWrite ∧ decode 0x55#32 = .ok .ringRead ∧ decode 0x56#32 = .ok .ringMetrics) ∧
  (∀ s : State, s.ring = none → ∀ i ∈ [Instr.ringWrite, .ringRead, .ringMetrics],
    exec i s = .next (failed s .notInit 0)) ∧
  ∀ (s : State) (r : Ring) (n : Nat), s.ring = some r → s.args.a0.toNat = n → r.wpos < r.slots → r.rpos < r.slots →
    let avail := (r.wpos + r.slots - r.rpos) % r.slots
    (8192 < n → ∀ i ∈ [Instr.ringWrite, .ringRead], exec i s = .next (failed s .badArg 0)) ∧
    (n ≤ 8192 →
      let k := min n (r.slots - 1 - avail)
      ∃ buf, exec .ringWrite s = .next (done { s with ring := some { r with
          buf := buf, wpos := (r.wpos + k) % r.slots, overflow := if k < n then satInc r.overflow else r.overflow } }
          (result (BitVec.ofNat 32 k))) ∧
        (∀ i, i < k → storeGet buf ((r.wpos + i) % r.slots) = s.swin.word i) ∧
        (∀ j, (∀ i, i < k → j ≠ (r.wpos + i) % r.slots) → storeGet buf j = storeGet r.buf j)) ∧
    (n ≤ 8192 →
      let k := min n avail
      exec .ringRead s = .next (done { s with
        ring := some { r with
          rpos := (r.rpos + k) % r.slots, underflow := if k < n then satInc r.underflow else r.underflow }
        swin := s.swin.setWords 0 ((List.range k).map (fun i => storeGet r.buf ((r.rpos + i) % r.slots)) ++
          List.replicate (n - k) 0) } (result (BitVec.ofNat 32 k)))) ∧
    exec .ringMetrics s = .next (done s ⟨BitVec.ofNat 32 avail, BitVec.ofNat 32 r.slots, r.overflow, r.underflow,
      B32.div (B32.ofNat avail) (B32.ofNat r.slots), 0⟩)

/-! ## Commands: engine (46_engine.md) -/

/-- R580: ENG_INIT: arguments out of range raise CONFIG_ERROR and leave the engine as it was; otherwise the configuration
is latched, mixer, FIFO and ring are created anew, the latency is computed, the engine is STOPPED, and everything else is
kept. (A running engine asks the device to stop, which takes a draw of DEVOK whose answer is ignored: the counter of the
draws is the model's own, notes/assumptions/7.md.) -/
def Obligations.EngineInit : Prop :=
  decode 0x60#32 = .ok .engInit ∧
  ∀ s : State,
    let sr := s.args.a0
    let bs := s.args.a2
    let valid := 8000 ≤ sr.toNat ∧ sr.toNat ≤ 192000 ∧ s.args.a1 = 2 ∧ 1 ≤ bs.toNat ∧ bs.toNat ≤ 8192
    (¬ valid → exec .engInit s = .next (failed s .configError 0)) ∧
    (valid → exec .engInit s = .next (done
      { s with
        eng := { s.eng with
          state := .stopped, sr := sr, ch := 2, bufsz := bs
          latency := B32.mul (B32.div (B32.ofNat bs.toNat) (B32.ofNat sr.toNat)) 0x447A0000#32 }
        mixer := some ⟨0, 0x3F800000#32, []⟩
        fifo := some ⟨4 * bs.toNat, [], 0, 0⟩
        ring := some ⟨4 * bs.toNat, [], 0, 0, 0, 0⟩
        draws := { s.draws with devok := s.draws.devok + (if s.eng.state = .running then 1 else 0) } }
      (result 1)))

/-- R581-R583: ENG_START and ENG_STOP in every engine state, with either answer of the device. The answer is the draw at
the oracle's counter, which each request moves on (the model's own field, notes/assumptions/7.md). -/
def Obligations.EngineStartStop : Prop :=
  (decode 0x61#32 = .ok .engStart ∧ decode 0x62#32 = .ok .engStop) ∧
  ∀ s : State,
    let ok := Config.devOk s.draws.devok
    let asked (e : EngState) : State :=
      { s with eng := { s.eng with state := e }, draws := { s.draws with devok := s.draws.devok + 1 } }
    (s.eng.state = .uninit → exec .engStart s = .next (failed s .notInit 0)) ∧
    (s.eng.state = .running → exec .engStart s = .next (done s (result 1))) ∧
    (s.eng.state = .stopped → ok = true → exec .engStart s = .next (done (asked .running) (result 1))) ∧
    (s.eng.state = .stopped → ok = false → exec .engStart s = .next (failed (asked .stopped) .deviceError 0)) ∧
    (s.eng.state ≠ .running → exec .engStop s = .next (done s (result 1))) ∧
    (s.eng.state = .running → ok = true → exec .engStop s = .next (done (asked .stopped) (result 1))) ∧
    (s.eng.state = .running → ok = false → exec .engStop s = .next (failed (asked .stopped) .deviceError 0))

/-- R584, R587: ENG_GET_METRICS reads the four metrics in every engine state, and NOP changes only STATUS.ERR and the
results. -/
def Obligations.MetricsAndNop : Prop :=
  (decode 0x63#32 = .ok .engGetMetrics ∧ decode 0x00#32 = .ok .nop) ∧
  ∀ s : State,
    exec .engGetMetrics s = .next (done s ⟨s.eng.cpuload, s.eng.underruns, s.eng.latency, s.eng.peak, 0, 0⟩) ∧
    exec .nop s = .next (done s noResult)

/-- R585, R586: registering and removing an effect: BAD_HANDLE, DUPLICATE before POOL_FULL, and on success the chain with
the effect appended or taken out, the order of the rest kept. -/
def Obligations.ChainCommands : Prop :=
  (decode 0x64#32 = .ok .engAddProc ∧ decode 0x65#32 = .ok .engRemoveProc) ∧
  NeedsHandle .engAddProc [.dly, .flt, .rev] ∧ NeedsHandle .engRemoveProc [.dly, .flt, .rev] ∧
  ∀ (s : State) (r : FxRef), s.args.a0 = fxHandle r → r.live s →
    (r ∈ s.chain → exec .engAddProc s = .next (failed s .duplicate 0)) ∧
    (r ∉ s.chain → s.chain.length = 8 → exec .engAddProc s = .next (failed s .poolFull 0)) ∧
    (r ∉ s.chain → s.chain.length ≠ 8 →
      exec .engAddProc s = .next (done { s with chain := s.chain ++ [r] } (result 1))) ∧
    (r ∉ s.chain → exec .engRemoveProc s = .next (done s (result 0))) ∧
    (∀ before after, s.chain = before ++ r :: after → r ∉ before → r ∉ after →
      exec .engRemoveProc s = .next (done { s with chain := before ++ after } (result 1)))
end

