-- ==== Sys2Proof/Laws/Cells.lean ====
section
/-! SUPPORT. Sparse cells: a read after a write, and the canonical form a write keeps. -/

namespace Sys2Proof.Machine

variable {α : Type}

theorem cellRead_filter (dflt : α) (p : Nat → Bool) (m : List (Nat × α)) (x : Nat) (h : p x = true) :
    cellRead dflt (m.filter (fun c => p c.1)) x = cellRead dflt m x := by
  induction m with
  | nil => rfl
  | cons c t ih =>
    obtain ⟨b, v⟩ := c
    by_cases hx : x = b
    · subst hx; simp [h, cellRead]
    · cases hb : p b <;> simp [hb, cellRead, hx, ih]

/-- A list that lists no entry at `x` reads the default there, so what follows it is what is read. -/
theorem cellRead_append_of_absent (dflt : α) (m m' : List (Nat × α)) (x : Nat) (h : ∀ c ∈ m, c.1 ≠ x) :
    cellRead dflt (m ++ m') x = cellRead dflt m' x := by
  induction m with
  | nil => rfl
  | cons c t ih =>
    obtain ⟨b, v⟩ := c
    have hb : x ≠ b := fun e => h (b, v) (by simp) e.symm
    simp [cellRead, hb, ih (fun c hc => h c (by simp [hc]))]

/-- Where nothing that follows lists `x`, only the first list is read. -/
theorem cellRead_append_left (dflt : α) (m m' : List (Nat × α)) (x : Nat) (h : ∀ c ∈ m', c.1 ≠ x) :
    cellRead dflt (m ++ m') x = cellRead dflt m x := by
  induction m with
  | nil =>
    have := cellRead_append_of_absent dflt m' [] x h
    simpa [cellRead] using this
  | cons c t ih => obtain ⟨b, v⟩ := c; simp [cellRead, ih]

variable [DecidableEq α]

theorem mem_cellRun {dflt : α} {vs : List α} {a : Nat} {c : Nat × α} (h : c ∈ cellRun dflt a vs) :
    a ≤ c.1 ∧ c.1 < a + vs.length ∧ c.2 ≠ dflt := by
  induction vs generalizing a with
  | nil => simp [cellRun] at h
  | cons v vs ih =>
    rw [cellRun] at h
    split at h
    · have := ih h; exact ⟨by omega, by simp only [List.length_cons]; omega, this.2.2⟩
    · rcases List.mem_cons.1 h with rfl | h
      · simp; assumption
      · have := ih h; exact ⟨by omega, by simp only [List.length_cons]; omega, this.2.2⟩

theorem cellRead_cellRun (dflt : α) (vs : List α) (a x : Nat) (h : a ≤ x) :
    cellRead dflt (cellRun dflt a vs) x = vs.getD (x - a) dflt := by
  induction vs generalizing a with
  | nil => simp [cellRun, cellRead]
  | cons v vs ih =>
    rw [cellRun]
    by_cases hx : x = a
    · subst hx
      split
      · next hv =>
        have := cellRead_append_of_absent dflt (cellRun dflt (x + 1) vs) [] x
          (fun c hc => by have := mem_cellRun hc; omega)
        simp only [List.append_nil, cellRead] at this
        simp [this, hv]
      · simp [cellRead]
    · have e : x - a = x - (a + 1) + 1 := by omega
      split
      · rw [ih (a + 1) (by omega), e, List.getD_cons_succ]
      · rw [cellRead, if_neg hx, ih (a + 1) (by omega), e, List.getD_cons_succ]

/-- A read after a write: inside the run the value written, outside what was there. -/
theorem cellRead_cellWrite (dflt : α) (m : List (Nat × α)) (a : Nat) (vs : List α) (x : Nat) :
    cellRead dflt (cellWrite dflt m a vs) x =
      if a ≤ x ∧ x < a + vs.length then vs.getD (x - a) dflt else cellRead dflt m x := by
  have hlow : ∀ c ∈ m.filter (fun p => decide (p.1 < a)), c.1 < a := by
    intro c hc; simpa using (List.mem_filter.1 hc).2
  have hhigh : ∀ c ∈ m.filter (fun p => decide (a + vs.length ≤ p.1)), a + vs.length ≤ c.1 := by
    intro c hc; simpa using (List.mem_filter.1 hc).2
  rw [cellWrite]
  by_cases h1 : x < a
  · rw [List.append_assoc, cellRead_append_left _ _ _ _ (by
      intro c hc
      rcases List.mem_append.1 hc with hc | hc
      · have := mem_cellRun hc; omega
      · have := hhigh c hc; omega)]
    rw [cellRead_filter dflt (fun b => decide (b < a)) m x (by simpa using h1), if_neg (by omega)]
  · by_cases h2 : x < a + vs.length
    · rw [cellRead_append_left _ _ _ _ (fun c hc => by have := hhigh c hc; omega),
        cellRead_append_of_absent _ _ _ _ (fun c hc => by have := hlow c hc; omega),
        cellRead_cellRun _ _ _ _ (by omega), if_pos (by omega)]
    · rw [cellRead_append_of_absent _ _ _ _ (fun c hc => by
        rcases List.mem_append.1 hc with hc | hc
        · have := hlow c hc; omega
        · have := mem_cellRun hc; omega)]
      rw [cellRead_filter dflt (fun b => decide (a + vs.length ≤ b)) m x (by simpa using h2), if_neg (by omega)]

/-! ## The canonical form -/

theorem cellWf_iff (dflt : α) (hi lo : Nat) (m : List (Nat × α)) :
    cellWf dflt hi lo m = true ↔
      (∀ c ∈ m, lo ≤ c.1 ∧ c.1 < hi ∧ c.2 ≠ dflt) ∧ m.Pairwise (fun c d => c.1 < d.1) := by
  induction m generalizing lo with
  | nil => simp [cellWf]
  | cons c t ih =>
    obtain ⟨b, v⟩ := c
    simp only [cellWf, Bool.and_eq_true, decide_eq_true_eq, Bool.not_eq_true', decide_eq_false_iff_not, ih,
      List.mem_cons, forall_eq_or_imp, List.pairwise_cons]
    constructor
    · rintro ⟨⟨⟨h1, h2⟩, h3⟩, h4, h5⟩
      exact ⟨⟨⟨h1, h2, h3⟩, fun c hc => ⟨by have := (h4 c hc).1; omega, (h4 c hc).2⟩⟩,
        fun d hd => by have := (h4 d hd).1; omega, h5⟩
    · rintro ⟨⟨⟨h1, h2, h3⟩, h4⟩, h5, h6⟩
      exact ⟨⟨⟨h1, h2⟩, h3⟩, fun c hc => ⟨by have := h5 c hc; omega, (h4 c hc).2⟩, h6⟩

theorem cellRun_pairwise (dflt : α) (vs : List α) (a : Nat) :
    (cellRun dflt a vs).Pairwise (fun c d => c.1 < d.1) := by
  induction vs generalizing a with
  | nil => exact .nil
  | cons v vs ih =>
    rw [cellRun]
    split
    · exact ih _
    · exact .cons (fun d hd => by have := mem_cellRun hd; simp; omega) (ih _)

/-- A write inside the bounds keeps the canonical form. -/
theorem cellWf_cellWrite {dflt : α} {hi lo a : Nat} {m : List (Nat × α)} {vs : List α}
    (h : cellWf dflt hi lo m = true) (hlo : lo ≤ a) (hhi : a + vs.length ≤ hi) :
    cellWf dflt hi lo (cellWrite dflt m a vs) = true := by
  obtain ⟨hb, hp⟩ := (cellWf_iff dflt hi lo m).1 h
  refine (cellWf_iff dflt hi lo _).2 ⟨?_, ?_⟩
  · intro c hc
    rcases List.mem_append.1 hc with hc | hc
    · rcases List.mem_append.1 hc with hc | hc
      · exact hb c (List.mem_filter.1 hc).1
      · have := mem_cellRun hc
        exact ⟨by omega, by omega, this.2.2⟩
    · exact hb c (List.mem_filter.1 hc).1
  · rw [cellWrite, List.pairwise_append, List.pairwise_append]
    refine ⟨⟨hp.filter _, cellRun_pairwise dflt vs a, ?_⟩, hp.filter _, ?_⟩
    · intro c hc d hd
      have h1 : c.1 < a := by simpa using (List.mem_filter.1 hc).2
      have := mem_cellRun hd; omega
    · intro c hc d hd
      have h2 : a + vs.length ≤ d.1 := by simpa using (List.mem_filter.1 hd).2
      rcases List.mem_append.1 hc with hc | hc
      · have h1 : c.1 < a := by simpa using (List.mem_filter.1 hc).2
        omega
      · have := mem_cellRun hc; omega

/-- Writing nothing changes nothing. -/
theorem cellWrite_nil {dflt : α} {hi lo a : Nat} {m : List (Nat × α)} (h : cellWf dflt hi lo m = true) :
    cellWrite dflt m a [] = m := by
  obtain ⟨-, hp⟩ := (cellWf_iff dflt hi lo m).1 h
  clear h
  simp only [cellWrite, cellRun, List.append_nil, List.length_nil, Nat.add_zero]
  induction m with
  | nil => rfl
  | cons c t ih =>
    rw [List.pairwise_cons] at hp
    by_cases hc : c.1 < a
    · have := ih hp.2
      simp [hc, this]
    · have h1 : t.filter (fun p => decide (p.1 < a)) = [] := by
        simp only [List.filter_eq_nil_iff, decide_eq_true_eq]
        intro d hd; have := hp.1 d hd; omega
      have h2 : t.filter (fun p => decide (a ≤ p.1)) = t := by
        simp only [List.filter_eq_self, decide_eq_true_eq]
        intro d hd; have := hp.1 d hd; omega
      simp [hc, h1, h2, Nat.le_of_not_lt hc]

/-- Two cell lists in canonical form that read alike are equal data. -/
theorem cells_ext {dflt : α} {hi lo : Nat} {m m' : List (Nat × α)} (h : cellWf dflt hi lo m = true)
    (h' : cellWf dflt hi lo m' = true) (he : ∀ x, cellRead dflt m x = cellRead dflt m' x) : m = m' := by
  induction m generalizing m' lo with
  | nil =>
    cases m' with
    | nil => rfl
    | cons c t =>
      obtain ⟨b, v⟩ := c
      simp only [cellWf, Bool.and_eq_true, decide_eq_true_eq, Bool.not_eq_true', decide_eq_false_iff_not] at h'
      have := he b
      simp only [cellRead, if_true] at this
      exact absurd this.symm h'.1.2
  | cons c t ih =>
    obtain ⟨b, v⟩ := c
    simp only [cellWf, Bool.and_eq_true, decide_eq_true_eq, Bool.not_eq_true', decide_eq_false_iff_not] at h
    cases m' with
    | nil =>
      have := he b
      simp only [cellRead, if_true] at this
      exact absurd this h.1.2
    | cons c' t' =>
      obtain ⟨b', v'⟩ := c'
      simp only [cellWf, Bool.and_eq_true, decide_eq_true_eq, Bool.not_eq_true', decide_eq_false_iff_not] at h'
      have absent : ∀ {lo x : Nat} {n : List (Nat × α)}, cellWf dflt hi lo n = true → x < lo →
          cellRead dflt n x = dflt := by
        intro lo x n hn hx
        have h2 := cellRead_append_of_absent dflt n [] x (fun c hc => by
          have := ((cellWf_iff dflt hi lo n).1 hn).1 c hc; omega)
        simpa [cellRead] using h2
      have hbb : b = b' := by
        rcases Nat.lt_trichotomy b b' with hlt | heq | hgt
        · have := he b
          simp only [cellRead, if_true, if_neg (Nat.ne_of_lt hlt)] at this
          rw [absent h'.2 (by omega)] at this
          exact absurd this h.1.2
        · exact heq
        · have := he b'
          simp only [cellRead, if_true, if_neg (Nat.ne_of_lt hgt)] at this
          rw [absent h.2 (by omega)] at this
          exact absurd this.symm h'.1.2
      subst hbb
      have hvv : v = v' := by have := he b; simpa [cellRead] using this
      subst hvv
      have htt : ∀ x, cellRead dflt t x = cellRead dflt t' x := by
        intro x
        by_cases hx : x = b
        · subst hx; rw [absent h.2 (by omega), absent h'.2 (by omega)]
        · have := he x; simpa [cellRead, hx] using this
      rw [ih h.2 h'.2 htt]

/-! ## Internal sample stores -/

theorem storeGet_storeSet (st : Store) (i j : Nat) (v : Word) :
    storeGet (storeSet st i v) j = if j = i then v else storeGet st j := by
  rw [storeGet, storeSet, cellRead_cellWrite]
  by_cases h : j = i
  · subst h; simp
  · rw [if_neg (by simp; omega), if_neg h]; rfl

theorem storeWf_storeSet {n i : Nat} {st : Store} (v : Word) (h : storeWf n st = true) (hi : i < n) :
    storeWf n (storeSet st i v) = true := cellWf_cellWrite h (by omega) (by simp; omega)

end Sys2Proof.Machine
end

