-- ==== Sys2Proof/Laws/Memory.lean ====
section
/-! SUPPORT. The sample window: byte order, a word read after a write, and the canonical form (10_state.md R61,
20_memory.md R157). -/

namespace Sys2Proof

@[simp] theorem bytesOfWord_length (w : Word) : (bytesOfWord w).length = 4 := rfl

/-- The four byte lanes of a word, put together again, are the word (20_memory.md R157). -/
theorem wordOfBytes_bytesOfWord (w : Word) :
    wordOfBytes (BitVec.ofNat 8 w.toNat) (BitVec.ofNat 8 (w.toNat / 2 ^ 8)) (BitVec.ofNat 8 (w.toNat / 2 ^ 16))
      (BitVec.ofNat 8 (w.toNat / 2 ^ 24)) = w := by
  apply BitVec.eq_of_toNat_eq
  have := w.isLt
  simp only [wordOfBytes, BitVec.toNat_ofNat]
  omega

/-- The byte lanes of a word put together from four bytes are these bytes. -/
theorem bytesOfWord_wordOfBytes (b0 b1 b2 b3 : Byte) : bytesOfWord (wordOfBytes b0 b1 b2 b3) = [b0, b1, b2, b3] := by
  have h0 := b0.isLt; have h1 := b1.isLt; have h2 := b2.isLt; have h3 := b3.isLt
  simp only [bytesOfWord, wordOfBytes, List.cons.injEq, and_true]
  refine ⟨?_, ?_, ?_, ?_⟩ <;> (apply BitVec.eq_of_toNat_eq; simp only [BitVec.toNat_ofNat]; omega)

/-- Byte `4 q + r` of a run of words is lane `r` of word `q`. -/
theorem getD_flatMap_bytesOfWord (ws : List Word) (q r : Nat) (hr : r < 4) (d : Byte) :
    (ws.flatMap bytesOfWord).getD (4 * q + r) d = if h : q < ws.length then (bytesOfWord ws[q]).getD r d else d := by
  induction ws generalizing q with
  | nil => simp
  | cons w ws ih =>
    cases q with
    | zero =>
      rw [List.flatMap_cons, List.getD_append _ _ _ _ (by simpa using hr)]
      simp
    | succ q =>
      rw [List.flatMap_cons, List.getD_append_right _ _ _ _ (by simp; omega)]
      have : 4 * (q + 1) + r - (bytesOfWord w).length = 4 * q + r := by simp; omega
      rw [this, ih]
      simp

namespace Machine

@[simp] theorem flatMap_bytesOfWord_length (ws : List Word) : (ws.flatMap bytesOfWord).length = 4 * ws.length := by
  induction ws with
  | nil => rfl
  | cons w ws ih => simp only [List.flatMap_cons, List.length_append, ih, bytesOfWord_length, List.length_cons]; omega

/-- A byte of the window after words are written. -/
theorem Memory.byte_setWords (m : Memory) (j : Nat) (ws : List Word) (off : Nat) :
    (m.setWords j ws).byte off =
      if Config.swinBase + 4 * j ≤ off ∧ off < Config.swinBase + 4 * j + 4 * ws.length then
        (ws.flatMap bytesOfWord).getD (off - (Config.swinBase + 4 * j)) 0#8
      else m.byte off := by
  rw [Memory.byte, Memory.setWords, cellRead_cellWrite, flatMap_bytesOfWord_length]; rfl

/-- A byte outside the words written keeps its value. -/
theorem Memory.byte_setWords_of_outside (m : Memory) (j : Nat) (ws : List Word) (off : Nat)
    (h : off < Config.swinBase + 4 * j ∨ Config.swinBase + 4 * j + 4 * ws.length ≤ off) :
    (m.setWords j ws).byte off = m.byte off := by
  rw [Memory.byte_setWords, if_neg (by omega)]

/-- A word of the window after words are written. -/
theorem Memory.word_setWords (m : Memory) (j : Nat) (ws : List Word) (i : Nat) :
    (m.setWords j ws).word i = if h : j ≤ i ∧ i - j < ws.length then ws[i - j]'h.2 else m.word i := by
  by_cases h : j ≤ i ∧ i - j < ws.length
  · rw [dif_pos h]
    have lane : ∀ r, r < 4 → (m.setWords j ws).byte (Config.swinBase + 4 * i + r) = (bytesOfWord (ws[i - j]'h.2)).getD r 0#8 := by
      intro r hr
      rw [Memory.byte_setWords, if_pos (by omega)]
      have : Config.swinBase + 4 * i + r - (Config.swinBase + 4 * j) = 4 * (i - j) + r := by omega
      rw [this, getD_flatMap_bytesOfWord _ _ _ hr, dif_pos h.2]
    have l0 := lane 0 (by omega)
    rw [Nat.add_zero] at l0
    rw [Memory.word, l0, lane 1 (by omega), lane 2 (by omega), lane 3 (by omega)]
    exact wordOfBytes_bytesOfWord _
  · rw [dif_neg h]
    have out : ∀ r, r < 4 → (m.setWords j ws).byte (Config.swinBase + 4 * i + r) = m.byte (Config.swinBase + 4 * i + r) :=
      fun r hr => Memory.byte_setWords_of_outside _ _ _ _ (by omega)
    have l0 := out 0 (by omega)
    rw [Nat.add_zero] at l0
    rw [Memory.word, Memory.word, l0, out 1 (by omega), out 2 (by omega), out 3 (by omega)]

/-- A word outside those written keeps its value. -/
theorem Memory.word_setWords_of_outside (m : Memory) (j : Nat) (ws : List Word) (i : Nat)
    (h : i < j ∨ j + ws.length ≤ i) : (m.setWords j ws).word i = m.word i := by
  rw [Memory.word_setWords, dif_neg (by omega)]

/-- SWIN after a run written from word 0 on. -/
theorem Memory.word_setWords_zero (m : Memory) (ws : List Word) (i : Nat) :
    (m.setWords 0 ws).word i = if h : i < ws.length then ws[i] else m.word i := by
  rw [Memory.word_setWords]; simp

/-- The words read back are the words written. -/
theorem Memory.words_setWords (m : Memory) (ws : List Word) : (m.setWords 0 ws).words ws.length = ws := by
  apply List.ext_getElem
  · simp [Memory.words]
  · intro i h1 h2; simp [Memory.words, Memory.word_setWords_zero, h2]

@[simp] theorem Memory.words_length (m : Memory) (n : Nat) : (m.words n).length = n := by simp [Memory.words]

@[simp] theorem Memory.frames_length (m : Memory) (n : Nat) : (m.frames n).length = n := by simp [Memory.frames]

@[simp] theorem interleave_length (fs : List Frame) : (interleave fs).length = 2 * fs.length := by
  induction fs with
  | nil => rfl
  | cons f fs ih =>
    rw [interleave, List.flatMap_cons, ← interleave, List.length_append, ih, List.length_cons]
    simp only [List.length_cons, List.length_nil]; omega

/-- Frame `i` of a block lies in words `2 i` and `2 i + 1` (30_encoding.md R209). -/
theorem getElem_interleave (fs : List Frame) (i : Nat) (h : i < fs.length) :
    (interleave fs)[2 * i]'(by simp; omega) = fs[i].1 ∧ (interleave fs)[2 * i + 1]'(by simp; omega) = fs[i].2 := by
  induction fs generalizing i with
  | nil => simp at h
  | cons f fs ih =>
    cases i with
    | zero => exact ⟨rfl, rfl⟩
    | succ i => exact ih i (by simpa using h)

/-- Frames written from word 0 on read back. -/
theorem Memory.frames_setWords (m : Memory) (fs : List Frame) :
    (m.setWords 0 (interleave fs)).frames fs.length = fs := by
  apply List.ext_getElem
  · simp
  · intro i h1 h2
    have e := getElem_interleave fs i h2
    simp only [Memory.frames, List.getElem_map, List.getElem_range, Memory.word_setWords_zero, interleave_length]
    rw [dif_pos (by omega), dif_pos (by omega), e.1, e.2]

/-! ## The canonical form (10_state.md R61) -/

/-- Writing words inside the window keeps the canonical form. -/
theorem Memory.wf_setWords {m : Memory} {j : Nat} {ws : List Word} (h : m.wf = true)
    (hj : j + ws.length ≤ Config.swinWords) : (m.setWords j ws).wf = true := by
  have : Config.swinWords = 16384 := rfl
  have : Config.portBytes = 131072 := rfl
  have : Config.swinBase = 65536 := rfl
  exact cellWf_cellWrite h (by omega) (by rw [flatMap_bytesOfWord_length]; omega)

theorem Memory.setWords_nil {m : Memory} (h : m.wf = true) (j : Nat) : m.setWords j [] = m := cellWrite_nil h

/-- Equal windows are equal data. -/
theorem Memory.ext {m m' : Memory} (h : m.wf = true) (h' : m'.wf = true) (he : ∀ off, m.byte off = m'.byte off) :
    m = m' := cells_ext h h' he

theorem Memory.wf_reset : State.reset.swin.wf = true := rfl

end Machine
end Sys2Proof
end

