-- ==== Sys2Proof/Laws/Buffers.lean ====
section
/-! SUPPORT. The fixed delay buffer and the ring, one operation at a time and over a run of them (45_buffers.md R530, R531,
R536, R537), and the note maps (41_oscillator.md R312, 42_envelope.md R363). -/

namespace Sys2Proof.Machine

/-! ## Fixed delay buffer -/

theorem delayBufOk_new {size : Nat} (h : 1 ≤ size) : DelayBufOk size (newDelayBuf size) := ⟨rfl, h, rfl, h⟩

/-- A write keeps the buffer's form (R530). -/
theorem delayBufOk_writeSample {size : Nat} {b : DelayBuf} (h : DelayBufOk size b) (v : Word) :
    DelayBufOk size (writeSample b v) := by
  obtain ⟨h1, h2, h3, h4⟩ := h
  refine ⟨h1, h2, storeWf_storeSet v h3 h4, ?_⟩
  show (b.w + 1) % b.size < size
  rw [h1]; exact Nat.mod_lt _ h2

/-- The slot a read at distance `d` looks at, for a cursor and a distance inside the buffer. -/
theorem readDelayed_eq {size : Nat} {b : DelayBuf} (h : DelayBufOk size b) {dist : Nat} (h1 : 1 ≤ dist) (h2 : dist ≤ size) :
    readDelayed b dist = storeGet b.buf ((b.w + size - dist) % size) := by
  have hs : b.size = size := h.1
  have hc : clampNat dist 1 b.size = dist := by unfold clampNat; split <;> [omega; (split <;> omega)]
  rw [readDelayed, hc, hs]
  congr 1
  have hpos : (0 : Int) < size := by have := h.2.1; omega
  have e : ((b.w : Int) - (dist : Nat)) % (size : Int) = ((b.w + size - dist : Nat) : Int) % (size : Int) := by
    rw [Nat.cast_sub (by omega), Nat.cast_add]
    rw [show ((b.w : Int) + size - dist) = (b.w - dist) + size by ring, Int.add_emod_right]
  rw [e, ← Int.natCast_mod, Int.toNat_natCast]

/-- A write is read back at distance 1, and what stood at a distance moves one further (R531). -/
theorem readDelayed_writeSample {size : Nat} {b : DelayBuf} (h : DelayBufOk size b) (v : Word) {dist : Nat}
    (h1 : 1 ≤ dist) (h2 : dist ≤ size) :
    readDelayed (writeSample b v) dist = if dist = 1 then v else readDelayed b (dist - 1) := by
  rw [readDelayed_eq (delayBufOk_writeSample h v) h1 h2]
  obtain ⟨hs, hp, hw, hc⟩ := h
  show storeGet (storeSet b.buf b.w v) (((b.w + 1) % b.size + size - dist) % size) = _
  rw [storeGet_storeSet, hs]
  have hmod : ((b.w + 1) % size + size - dist) % size = (b.w + size - (dist - 1)) % size := by
    rcases Nat.lt_or_ge (b.w + 1) size with hlt | hge
    · rw [Nat.mod_eq_of_lt hlt]; congr 1; omega
    · have hw' : b.w + 1 = size := by omega
      rw [hw', Nat.mod_self]
      rw [show b.w + size - (dist - 1) = (0 + size - dist) + size by omega, Nat.add_mod_right]
  rw [hmod]
  by_cases hd : dist = 1
  · subst hd
    have : (b.w + size - (1 - 1)) % size = b.w := by
      rw [show b.w + size - (1 - 1) = b.w + size by omega, Nat.add_mod_right, Nat.mod_eq_of_lt hc]
    rw [if_pos this, if_pos rfl]
  · have hne : (b.w + size - (dist - 1)) % size ≠ b.w := by
      rcases Nat.lt_or_ge (b.w + size - (dist - 1)) size with hlt | hge
      · rw [Nat.mod_eq_of_lt hlt]; omega
      · rw [show b.w + size - (dist - 1) = (b.w - (dist - 1)) + size by omega, Nat.add_mod_right,
          Nat.mod_eq_of_lt (by omega)]
        omega
    rw [if_neg hne, if_neg hd, readDelayed_eq ⟨hs, hp, hw, hc⟩ (by omega) (by omega)]

/-- A fresh buffer reads +0.0 everywhere (R531). -/
theorem readDelayed_new (size dist : Nat) : readDelayed (newDelayBuf size) dist = 0 := rfl

/-- A read clamps its distance (R531). -/
theorem readDelayed_clamp {b : DelayBuf} (h : 1 ≤ b.size) (dist : Nat) :
    readDelayed b dist = readDelayed b (clampNat dist 1 b.size) := by
  have : clampNat (clampNat dist 1 b.size) 1 b.size = clampNat dist 1 b.size := by
    unfold clampNat; repeat' split
    all_goals omega
  rw [readDelayed, readDelayed, this]

theorem clampNat_bounds {v lo hi : Nat} (h : lo ≤ hi) : lo ≤ clampNat v lo hi ∧ clampNat v lo hi ≤ hi := by
  unfold clampNat; split
  · omega
  · split <;> omega

/-! ## Ring -/

/-- The samples a ring holds, for cursors inside it (10_state.md R74). -/
theorem ringAvail_eq {r : Ring} (_hw : r.wpos < r.slots) (hr : r.rpos < r.slots) :
    ringAvail r = (r.wpos + r.slots - r.rpos) % r.slots := by
  unfold ringAvail
  have e : ((r.wpos : Int) - (r.rpos : Int)) % (r.slots : Int) =
      ((r.wpos + r.slots - r.rpos : Nat) : Int) % (r.slots : Int) := by
    rw [Nat.cast_sub (by omega), Nat.cast_add]
    rw [show ((r.wpos : Int) + r.slots - r.rpos) = (r.wpos - r.rpos) + r.slots by ring, Int.add_emod_right]
  rw [e, ← Int.natCast_mod, Int.toNat_natCast]

/-- Storing samples moves the write cursor and the slots it passes, and nothing else (R536). -/
theorem ringPush_fields (r : Ring) (vs : List Word) :
    (ringPush r vs).slots = r.slots ∧ (ringPush r vs).rpos = r.rpos ∧ (ringPush r vs).overflow = r.overflow ∧
      (ringPush r vs).underflow = r.underflow := by
  induction vs generalizing r with
  | nil => exact ⟨rfl, rfl, rfl, rfl⟩
  | cons v vs ih => exact ih _

theorem ringPush_wpos {r : Ring} (h : r.wpos < r.slots) (vs : List Word) :
    (ringPush r vs).wpos = (r.wpos + vs.length) % r.slots := by
  induction vs generalizing r with
  | nil => exact (Nat.mod_eq_of_lt h).symm
  | cons v vs ih =>
    rw [ringPush, ih (Nat.mod_lt _ (by omega))]
    show ((r.wpos + 1) % r.slots + vs.length) % r.slots = _
    rw [Nat.mod_add_mod, List.length_cons]; congr 1; omega

/-- The slots after storing fewer samples than there are slots (R536). -/
theorem ringPush_buf {r : Ring} (h : r.wpos < r.slots) (vs : List Word) (hl : vs.length ≤ r.slots) (j : Nat) :
    storeGet (ringPush r vs).buf j =
      if h : j < r.slots ∧ (j + r.slots - r.wpos) % r.slots < vs.length then vs[(j + r.slots - r.wpos) % r.slots]'h.2
      else storeGet r.buf j := by
  induction vs generalizing r with
  | nil => simp [ringPush]
  | cons v vs ih =>
    have hpos : 0 < r.slots := by omega
    rw [ringPush, ih (Nat.mod_lt _ hpos) (by simp only [List.length_cons] at hl; show vs.length ≤ r.slots; omega)]
    show (if h : j < r.slots ∧ (j + r.slots - (r.wpos + 1) % r.slots) % r.slots < vs.length then _
      else storeGet (storeSet r.buf r.wpos v) j) = _
    by_cases hj : j < r.slots
    · by_cases he : j = r.wpos
      · subst he
        have h0 : (r.wpos + r.slots - r.wpos) % r.slots = 0 := by
          rw [show r.wpos + r.slots - r.wpos = r.slots by omega, Nat.mod_self]
        have h1 : (r.wpos + r.slots - (r.wpos + 1) % r.slots) % r.slots = r.slots - 1 := by
          rcases Nat.lt_or_ge (r.wpos + 1) r.slots with hlt | hge
          · rw [Nat.mod_eq_of_lt hlt, show r.wpos + r.slots - (r.wpos + 1) = r.slots - 1 by omega,
              Nat.mod_eq_of_lt (by omega)]
          · rw [show r.wpos + 1 = r.slots by omega, Nat.mod_self,
              show r.wpos + r.slots - 0 = (r.slots - 1) + r.slots by omega, Nat.add_mod_right,
              Nat.mod_eq_of_lt (by omega)]
        simp only [List.length_cons] at hl
        rw [dif_neg (by rw [h1]; omega), storeGet_storeSet, if_pos rfl, dif_pos ⟨hj, by rw [h0]; simp⟩]
        simp
      · have hsucc : (j + r.slots - r.wpos) % r.slots = (j + r.slots - (r.wpos + 1) % r.slots) % r.slots + 1 := by
          rcases Nat.lt_or_ge (r.wpos + 1) r.slots with hlt | hge
          · rw [Nat.mod_eq_of_lt hlt]
            rcases Nat.lt_or_ge j r.wpos with h1 | h1
            · rw [Nat.mod_eq_of_lt (by omega), Nat.mod_eq_of_lt (by omega)]; omega
            · rw [show j + r.slots - r.wpos = (j - r.wpos) + r.slots by omega, Nat.add_mod_right,
                Nat.mod_eq_of_lt (by omega), show j + r.slots - (r.wpos + 1) = (j - r.wpos - 1) + r.slots by omega,
                Nat.add_mod_right, Nat.mod_eq_of_lt (by omega)]
              omega
          · rw [show r.wpos + 1 = r.slots by omega, Nat.mod_self,
              show j + r.slots - 0 = j + r.slots by omega, Nat.add_mod_right, Nat.mod_eq_of_lt hj,
              Nat.mod_eq_of_lt (by omega)]
            omega
        rw [storeGet_storeSet, if_neg he]
        by_cases hc : (j + r.slots - (r.wpos + 1) % r.slots) % r.slots < vs.length
        · rw [dif_pos ⟨hj, hc⟩, dif_pos ⟨hj, by rw [hsucc]; simp; exact hc⟩]
          simp [hsucc]
        · rw [dif_neg (by rintro ⟨-, h⟩; exact hc h), dif_neg (by rintro ⟨-, h⟩; rw [hsucc] at h; simp at h; exact hc h)]
    · rw [dif_neg (by rintro ⟨h, -⟩; exact hj h), dif_neg (by rintro ⟨h, -⟩; exact hj h), storeGet_storeSet,
        if_neg (by omega)]

/-- Taking samples moves the read cursor alone (R537). -/
theorem ringPull_fields (k : Nat) (r : Ring) :
    (ringPull k r).2.slots = r.slots ∧ (ringPull k r).2.wpos = r.wpos ∧ (ringPull k r).2.buf = r.buf ∧
      (ringPull k r).2.overflow = r.overflow ∧ (ringPull k r).2.underflow = r.underflow := by
  induction k generalizing r with
  | zero => exact ⟨rfl, rfl, rfl, rfl, rfl⟩
  | succ k ih => exact ih _

theorem ringPull_rpos {r : Ring} (h : r.rpos < r.slots) (k : Nat) :
    (ringPull k r).2.rpos = (r.rpos + k) % r.slots := by
  induction k generalizing r with
  | zero => exact (Nat.mod_eq_of_lt h).symm
  | succ k ih =>
    have : (ringPull (k + 1) r).2 = (ringPull k { r with rpos := (r.rpos + 1) % r.slots }).2 := rfl
    rw [this, ih (Nat.mod_lt _ (by omega))]
    show ((r.rpos + 1) % r.slots + k) % r.slots = _
    rw [Nat.mod_add_mod]; congr 1; omega

theorem ringPull_samples {r : Ring} (h : r.rpos < r.slots) (k : Nat) :
    (ringPull k r).1 = (List.range k).map (fun i => storeGet r.buf ((r.rpos + i) % r.slots)) := by
  induction k generalizing r with
  | zero => rfl
  | succ k ih =>
    have : (ringPull (k + 1) r).1 =
        storeGet r.buf r.rpos :: (ringPull k { r with rpos := (r.rpos + 1) % r.slots }).1 := rfl
    rw [this, ih (Nat.mod_lt _ (by omega)), List.range_succ_eq_map, List.map_cons, List.map_map]
    congr 1
    · rw [Nat.add_zero, Nat.mod_eq_of_lt h]
    · apply List.map_congr_left
      intro i _
      show storeGet r.buf (((r.rpos + 1) % r.slots + i) % r.slots) = storeGet r.buf ((r.rpos + (i + 1)) % r.slots)
      rw [Nat.mod_add_mod]; congr 2; omega

/-! ## Note maps -/

/-- The first index holding an entry. -/
theorem noteIndex_eq_some {n : Option (Fin 128)} {l : List (Option (Fin 128))} {j : Nat} (h : l[j]? = some n)
    (hmin : ∀ i, i < j → l[i]? ≠ some n) : noteIndex n l = some j := by
  induction l generalizing j with
  | nil => simp at h
  | cons m t ih =>
    rw [noteIndex]
    cases j with
    | zero => simp at h; simp [h]
    | succ j =>
      have h0 : m ≠ n := fun e => hmin 0 (by omega) (by simp [e])
      rw [if_neg h0, ih (j := j) (by simpa using h) (fun i hi => by simpa using hmin (i + 1) (by omega))]; rfl

theorem noteIndex_eq_none {n : Option (Fin 128)} {l : List (Option (Fin 128))} (h : n ∉ l) : noteIndex n l = none := by
  induction l with
  | nil => rfl
  | cons m t ih => rw [noteIndex, if_neg (by rintro rfl; simp at h), ih (by simp at h; exact h.2)]; rfl

theorem noteIndex_some {n : Option (Fin 128)} {l : List (Option (Fin 128))} {j : Nat} (h : noteIndex n l = some j) :
    l[j]? = some n := by
  induction l generalizing j with
  | nil => cases h
  | cons m t ih =>
    rw [noteIndex] at h
    split at h
    · next hm => cases h; simp [hm]
    · obtain ⟨i, hi, rfl⟩ := Option.map_eq_some_iff.1 h
      simpa using ih hi

theorem noteIndex_none {n : Option (Fin 128)} {l : List (Option (Fin 128))} (h : noteIndex n l = none) : n ∉ l := by
  intro hm
  obtain ⟨j, hj⟩ := List.mem_iff_getElem?.1 hm
  induction l generalizing j with
  | nil => simp at hm
  | cons m t ih =>
    rw [noteIndex] at h
    split at h
    · cases h
    · next hne =>
      rw [Option.map_eq_none_iff] at h
      have hmt : n ∈ t := by rcases List.mem_cons.1 hm with h' | h'; exact absurd h'.symm hne; exact h'
      obtain ⟨i, hi⟩ := List.mem_iff_getElem?.1 hmt
      exact ih h hmt i hi

end Sys2Proof.Machine
end

