-- ==== Sys2Proof/Laws/Handles.lean ====
section
/-! SUPPORT. Pools and handles: what a handle decodes to (10_state.md R55, 20_memory.md R159). -/

namespace Sys2Proof.Machine

/-! ## Pools -/

theorem poolGet_some {α : Type} {p : List (Option α)} {i : Nat} {u : α} :
    poolGet p i = some u ↔ p[i]? = some (some u) := by
  simp [poolGet, Option.join_eq_some_iff]

theorem poolGet_lt {α : Type} {p : List (Option α)} {i : Nat} {u : α} (h : poolGet p i = some u) : i < p.length := by
  rw [poolGet_some] at h
  exact (List.getElem?_eq_some_iff.1 h).1

theorem poolGet_mem {α : Type} {p : List (Option α)} {i : Nat} {u : α} (h : poolGet p i = some u) : some u ∈ p :=
  List.mem_of_getElem? (poolGet_some.1 h)

@[simp] theorem poolSet_length {α : Type} (p : List (Option α)) (i : Nat) (u : α) : (poolSet p i u).length = p.length :=
  List.length_set

theorem poolGet_poolSet {α : Type} (p : List (Option α)) (i j : Nat) (u : α) :
    poolGet (poolSet p i u) j = if j = i ∧ i < p.length then some u else poolGet p j := by
  unfold poolGet poolSet
  rw [List.getElem?_set]
  by_cases h : i = j
  · subst h
    by_cases hl : i < p.length
    · simp [hl]
    · simp [hl]
  · simp [h, Ne.symm h]

theorem poolGet_poolSet_self {α : Type} {p : List (Option α)} {i : Nat} (u : α) (h : i < p.length) :
    poolGet (poolSet p i u) i = some u := by rw [poolGet_poolSet]; simp [h]

theorem poolGet_poolSet_ne {α : Type} (p : List (Option α)) {i j : Nat} (u : α) (h : j ≠ i) :
    poolGet (poolSet p i u) j = poolGet p j := by rw [poolGet_poolSet]; simp [h]

/-- A record of a pool after a write is the one written or one that was there. -/
theorem mem_poolSet {α : Type} {p : List (Option α)} {i : Nat} {u v : α} (h : some v ∈ poolSet p i u) :
    v = u ∨ some v ∈ p := by
  rcases List.mem_or_eq_of_mem_set h with h | h
  · exact .inr h
  · exact .inl (by simpa using h)

/-- The free slot is unallocated and every lower one is allocated (10_state.md R55). -/
theorem freeSlot_some {α : Type} {p : List (Option α)} {k : Nat} :
    freeSlot p = some k ↔ p[k]? = some none ∧ ∀ j, j < k → ∃ u, poolGet p j = some u := by
  induction p generalizing k with
  | nil => simp [freeSlot]
  | cons o t ih =>
    cases o with
    | none =>
      cases k with
      | zero => simp [freeSlot]
      | succ k =>
        simp only [freeSlot, Option.some.injEq, Nat.zero_ne_add_one, false_iff, not_and, not_forall]
        exact fun _ => ⟨0, by simp [poolGet]⟩
    | some v =>
      cases k with
      | zero => simp [freeSlot]
      | succ k =>
        simp only [freeSlot, Option.map_eq_some_iff, Nat.add_right_cancel_iff, exists_eq_right, ih,
          List.getElem?_cons_succ]
        refine and_congr_right fun _ => ⟨fun h j hj => ?_, fun h j hj => ?_⟩
        · cases j with
          | zero => exact ⟨v, by simp [poolGet]⟩
          | succ j => simpa [poolGet] using h j (by omega)
        · simpa [poolGet] using h (j + 1) (by omega)

theorem freeSlot_lt {α : Type} {p : List (Option α)} {k : Nat} (h : freeSlot p = some k) : k < p.length :=
  (List.getElem?_eq_some_iff.1 (freeSlot_some.1 h).1).1

theorem freeSlot_none {α : Type} {p : List (Option α)} : freeSlot p = none ↔ ∀ o ∈ p, o.isSome = true := by
  induction p with
  | nil => simp [freeSlot]
  | cons o t ih => cases o <;> simp [freeSlot, ih]

/-! ## Handles -/

theorem kindOfCode_eq_some {c : Nat} {k : Kind} : kindOfCode c = some k ↔ c = kindCode k := by
  constructor
  · intro h
    unfold kindOfCode at h
    split at h <;> cases h <;> rfl
  · rintro rfl; cases k <;> rfl

theorem kindCode_lt (k : Kind) : kindCode k < 256 := by cases k <;> decide

theorem kindCode_injective {k k' : Kind} (h : kindCode k = kindCode k') : k = k' := by
  cases k <;> cases k' <;> first | rfl | (exfalso; revert h; decide)

theorem poolSize_lt (k : Kind) : poolSize k < 2 ^ 24 := by cases k <;> decide

theorem handleWord_toNat (k : Kind) {i : Nat} (h : i < 2 ^ 24) : (handleWord k i).toNat = kindCode k * 2 ^ 24 + i := by
  have := kindCode_lt k
  rw [handleWord, BitVec.toNat_ofNat]; omega

theorem handleWord_kind (k : Kind) {i : Nat} (h : i < 2 ^ 24) : (handleWord k i).toNat / 2 ^ 24 = kindCode k := by
  rw [handleWord_toNat k h]; omega

theorem handleWord_index (k : Kind) {i : Nat} (h : i < 2 ^ 24) : (handleWord k i).toNat % 2 ^ 24 = i := by
  rw [handleWord_toNat k h]; omega

theorem eq_handleWord {h : Word} {k : Kind} (hk : h.toNat / 2 ^ 24 = kindCode k) :
    h = handleWord k (h.toNat % 2 ^ 24) := by
  apply BitVec.eq_of_toNat_eq
  rw [handleWord_toNat k (Nat.mod_lt _ (by decide))]; omega

/-- A valid handle names one slot. -/
theorem HandleNames.unique {s : State} {h : Word} {k k' : Kind} {i i' : Nat} (a : HandleNames s h k i)
    (b : HandleNames s h k' i') : k = k' ∧ i = i' := by
  have li := Nat.lt_trans a.2.1 (poolSize_lt k)
  have li' := Nat.lt_trans b.2.1 (poolSize_lt k')
  have ha := a.1
  rw [b.1] at ha
  have hk := handleWord_kind k' li'
  have hi := handleWord_index k' li'
  rw [ha, handleWord_kind k li] at hk
  rw [ha, handleWord_index k li] at hi
  exact ⟨kindCode_injective hk, hi⟩

/-- A valid handle decodes to its slot where its kind is accepted, and raises BAD_HANDLE elsewhere. -/
theorem decodeHandle_names {s : State} {h : Word} {k : Kind} {i : Nat} (hn : HandleNames s h k i) (acc : List Kind) :
    decodeHandle s h acc = if k ∈ acc then .ok (k, i) else .error .badHandle := by
  have li := Nat.lt_trans hn.2.1 (poolSize_lt k)
  rw [hn.1, decodeHandle, handleWord_kind k li, handleWord_index k li, kindOfCode_eq_some.2 rfl]
  have : ¬ (poolSize k ≤ i ∨ allocated s k i = false) := by simp [hn.2.1, hn.2.2]
  simp only [this, if_false]

theorem decodeHandle_ok {s : State} {h : Word} {acc : List Kind} {k : Kind} {i : Nat} :
    decodeHandle s h acc = .ok (k, i) ↔ HandleNames s h k i ∧ k ∈ acc := by
  constructor
  · intro hd
    unfold decodeHandle at hd
    split at hd
    · cases hd
    · next k' hk =>
      split at hd
      · cases hd
      · next hv =>
        split at hd
        · next hm =>
          cases hd
          rw [not_or, Nat.not_le, Bool.not_eq_false] at hv
          exact ⟨⟨eq_handleWord (kindOfCode_eq_some.1 hk), hv.1, hv.2⟩, hm⟩
        · cases hd
  · rintro ⟨hn, hm⟩
    rw [decodeHandle_names hn, if_pos hm]

theorem decodeHandle_error {s : State} {h : Word} {acc : List Kind} {e : ErrCode} (hd : decodeHandle s h acc = .error e) :
    e = .badHandle := by
  unfold decodeHandle at hd
  split at hd
  · cases hd; rfl
  · split at hd
    · cases hd; rfl
    · split at hd <;> cases hd; rfl

/-- BAD_HANDLE exactly where no accepted slot is named. -/
theorem decodeHandle_bad {s : State} {h : Word} {acc : List Kind} :
    decodeHandle s h acc = .error .badHandle ↔ BadHandle s h acc := by
  constructor
  · intro hd k hk i hn
    rw [decodeHandle_names hn, if_pos hk] at hd
    cases hd
  · intro hb
    cases hd : decodeHandle s h acc with
    | error e => rw [decodeHandle_error hd]
    | ok p =>
      obtain ⟨hn, hm⟩ := decodeHandle_ok.1 (show decodeHandle s h acc = .ok (p.1, p.2) from hd)
      exact absurd hn (hb p.1 hm p.2)

/-- The unit a valid handle of the accepted kind names. -/
theorem unitOf_names {α : Type} {s : State} {k : Kind} {p : List (Option α)} {h : Word} {i : Nat} {u : α}
    (hn : HandleNames s h k i) (hu : poolGet p i = some u) : unitOf s k p h = .ok (i, u) := by
  simp only [unitOf, decodeHandle_names hn, List.mem_singleton, if_true, hu]

theorem unitOf_bad {α : Type} {s : State} {k : Kind} {p : List (Option α)} {h : Word} (hb : BadHandle s h [k]) :
    unitOf s k p h = .error .badHandle := by
  simp only [unitOf, decodeHandle_bad.2 hb]

/-- What `unitOf` answers: a named slot with its record, or BAD_HANDLE. -/
theorem unitOf_ok {α : Type} {s : State} {k : Kind} {p : List (Option α)} {h : Word} {i : Nat} {u : α}
    (ho : unitOf s k p h = .ok (i, u)) : HandleNames s h k i ∧ poolGet p i = some u := by
  unfold unitOf at ho
  split at ho
  · cases ho
  · next k' i' hd =>
    obtain ⟨hn, hm⟩ := decodeHandle_ok.1 hd
    rw [List.mem_singleton] at hm
    subst hm
    split at ho
    · next hu => cases ho; exact ⟨hn, hu⟩
    · cases ho

theorem unitOf_error {α : Type} {s : State} {k : Kind} {p : List (Option α)} {h : Word} {e : ErrCode}
    (he : unitOf s k p h = .error e) : e = .badHandle := by
  unfold unitOf at he
  split at he
  · next hd => cases he; exact decodeHandle_error hd
  · split at he <;> cases he; rfl

/-! ## References to sources and effects -/

/-- `srcOf` answers a live source whose handle the word is, or BAD_HANDLE. -/
theorem srcOf_ok {s : State} {h : Word} {r : SrcRef} : srcOf s h = .ok r ↔ h = srcHandle r ∧ r.live s := by
  constructor
  · intro ho
    unfold srcOf at ho
    split at ho
    · next hd => cases ho; obtain ⟨⟨a, b, c⟩, -⟩ := decodeHandle_ok.1 hd; exact ⟨a, b, c⟩
    · next hd => cases ho; obtain ⟨⟨a, b, c⟩, -⟩ := decodeHandle_ok.1 hd; exact ⟨a, b, c⟩
    · next hd => cases ho; obtain ⟨⟨a, b, c⟩, -⟩ := decodeHandle_ok.1 hd; exact ⟨a, b, c⟩
    · cases ho
    · cases ho
  · rintro ⟨a, hl⟩
    cases r with
    | osc i => rw [srcOf, decodeHandle_names (⟨a, hl.1, hl.2⟩ : HandleNames s h .osc i)]; rfl
    | poly i => rw [srcOf, decodeHandle_names (⟨a, hl.1, hl.2⟩ : HandleNames s h .poly i)]; rfl
    | env i => rw [srcOf, decodeHandle_names (⟨a, hl.1, hl.2⟩ : HandleNames s h .env i)]; rfl

theorem srcOf_bad {s : State} {h : Word} (hb : BadHandle s h srcKinds) : srcOf s h = .error .badHandle := by
  rw [srcOf, decodeHandle_bad.2 hb]

theorem srcOf_error {s : State} {h : Word} {e : ErrCode} (he : srcOf s h = .error e) :
    e = .badHandle ∧ BadHandle s h srcKinds := by
  unfold srcOf at he
  split at he
  · cases he
  · cases he
  · cases he
  · next x hne1 hne2 hne3 hd =>
    obtain ⟨k, i⟩ := x
    obtain ⟨hn, hm⟩ := decodeHandle_ok.1 hd
    simp only [srcKinds, List.mem_cons, List.not_mem_nil, or_false] at hm
    rcases hm with rfl | rfl | rfl
    · exact absurd rfl (hne1 i)
    · exact absurd rfl (hne2 i)
    · exact absurd rfl (hne3 i)
  · next hd =>
    cases he
    have := decodeHandle_error hd
    subst this
    exact ⟨rfl, decodeHandle_bad.1 hd⟩

theorem fxOf_ok {s : State} {h : Word} {r : FxRef} : fxOf s h = .ok r ↔ h = fxHandle r ∧ r.live s := by
  constructor
  · intro ho
    unfold fxOf at ho
    split at ho
    · next hd => cases ho; obtain ⟨⟨a, b, c⟩, -⟩ := decodeHandle_ok.1 hd; exact ⟨a, b, c⟩
    · next hd => cases ho; obtain ⟨⟨a, b, c⟩, -⟩ := decodeHandle_ok.1 hd; exact ⟨a, b, c⟩
    · next hd => cases ho; obtain ⟨⟨a, b, c⟩, -⟩ := decodeHandle_ok.1 hd; exact ⟨a, b, c⟩
    · cases ho
    · cases ho
  · rintro ⟨a, hl⟩
    cases r with
    | dly i => rw [fxOf, decodeHandle_names (⟨a, hl.1, hl.2⟩ : HandleNames s h .dly i)]; rfl
    | flt i => rw [fxOf, decodeHandle_names (⟨a, hl.1, hl.2⟩ : HandleNames s h .flt i)]; rfl
    | rev i => rw [fxOf, decodeHandle_names (⟨a, hl.1, hl.2⟩ : HandleNames s h .rev i)]; rfl

theorem fxOf_bad {s : State} {h : Word} (hb : BadHandle s h fxKinds) : fxOf s h = .error .badHandle := by
  rw [fxOf, decodeHandle_bad.2 hb]

theorem fxOf_error {s : State} {h : Word} {e : ErrCode} (he : fxOf s h = .error e) :
    e = .badHandle ∧ BadHandle s h fxKinds := by
  unfold fxOf at he
  split at he
  · cases he
  · cases he
  · cases he
  · next x hne1 hne2 hne3 hd =>
    obtain ⟨k, i⟩ := x
    obtain ⟨hn, hm⟩ := decodeHandle_ok.1 hd
    simp only [fxKinds, List.mem_cons, List.not_mem_nil, or_false] at hm
    rcases hm with rfl | rfl | rfl
    · exact absurd rfl (hne1 i)
    · exact absurd rfl (hne2 i)
    · exact absurd rfl (hne3 i)
  · next hd =>
    cases he
    have := decodeHandle_error hd
    subst this
    exact ⟨rfl, decodeHandle_bad.1 hd⟩

/-- A live source reference names a record of its pool. -/
theorem SrcRef.live_iff {s : State} {r : SrcRef} : r.live s ↔
    match r with
    | .osc i => i < poolSize .osc ∧ ∃ u, poolGet s.osc i = some u
    | .poly i => i < poolSize .poly ∧ ∃ u, poolGet s.poly i = some u
    | .env i => i < poolSize .env ∧ ∃ u, poolGet s.env i = some u := by
  cases r <;> simp [SrcRef.live, allocated, Option.isSome_iff_exists]

theorem FxRef.live_iff {s : State} {r : FxRef} : r.live s ↔
    match r with
    | .dly i => i < poolSize .dly ∧ ∃ u, poolGet s.dly i = some u
    | .flt i => i < poolSize .flt ∧ ∃ u, poolGet s.flt i = some u
    | .rev i => i < poolSize .rev ∧ ∃ u, poolGet s.rev i = some u := by
  cases r <;> simp [FxRef.live, allocated, Option.isSome_iff_exists]

/-! ## A slot a valid handle names holds a record -/

theorem HandleNames.osc_get {s : State} {h : Word} {i : Nat} (hn : HandleNames s h .osc i) :
    ∃ u, poolGet s.osc i = some u := Option.isSome_iff_exists.1 (show (poolGet s.osc i).isSome = true from hn.2.2)

theorem HandleNames.poly_get {s : State} {h : Word} {i : Nat} (hn : HandleNames s h .poly i) :
    ∃ u, poolGet s.poly i = some u := Option.isSome_iff_exists.1 (show (poolGet s.poly i).isSome = true from hn.2.2)

theorem HandleNames.env_get {s : State} {h : Word} {i : Nat} (hn : HandleNames s h .env i) :
    ∃ u, poolGet s.env i = some u := Option.isSome_iff_exists.1 (show (poolGet s.env i).isSome = true from hn.2.2)

theorem HandleNames.epool_get {s : State} {h : Word} {i : Nat} (hn : HandleNames s h .epool i) :
    ∃ u, poolGet s.epool i = some u := Option.isSome_iff_exists.1 (show (poolGet s.epool i).isSome = true from hn.2.2)

theorem HandleNames.dly_get {s : State} {h : Word} {i : Nat} (hn : HandleNames s h .dly i) :
    ∃ u, poolGet s.dly i = some u := Option.isSome_iff_exists.1 (show (poolGet s.dly i).isSome = true from hn.2.2)

theorem HandleNames.flt_get {s : State} {h : Word} {i : Nat} (hn : HandleNames s h .flt i) :
    ∃ u, poolGet s.flt i = some u := Option.isSome_iff_exists.1 (show (poolGet s.flt i).isSome = true from hn.2.2)

theorem HandleNames.rev_get {s : State} {h : Word} {i : Nat} (hn : HandleNames s h .rev i) :
    ∃ u, poolGet s.rev i = some u := Option.isSome_iff_exists.1 (show (poolGet s.rev i).isSome = true from hn.2.2)

end Sys2Proof.Machine
end

