-- ==== Sys2Proof/Laws/State.lean ====
section
/-! SUPPORT. What each named update of the state leaves in each field. -/

namespace Sys2Proof.Machine

@[simp] theorem State.setOsc_cmd (s : State) (i : Nat) (u : Osc) : (s.setOsc i u).cmd = s.cmd := rfl
@[simp] theorem State.setOsc_args (s : State) (i : Nat) (u : Osc) : (s.setOsc i u).args = s.args := rfl
@[simp] theorem State.setOsc_err (s : State) (i : Nat) (u : Osc) : (s.setOsc i u).err = s.err := rfl
@[simp] theorem State.setOsc_res (s : State) (i : Nat) (u : Osc) : (s.setOsc i u).res = s.res := rfl
@[simp] theorem State.setOsc_swin (s : State) (i : Nat) (u : Osc) : (s.setOsc i u).swin = s.swin := rfl
@[simp] theorem State.setOsc_osc (s : State) (i : Nat) (u : Osc) : (s.setOsc i u).osc = poolSet s.osc i u := rfl
@[simp] theorem State.setOsc_poly (s : State) (i : Nat) (u : Osc) : (s.setOsc i u).poly = s.poly := rfl
@[simp] theorem State.setOsc_env (s : State) (i : Nat) (u : Osc) : (s.setOsc i u).env = s.env := rfl
@[simp] theorem State.setOsc_epool (s : State) (i : Nat) (u : Osc) : (s.setOsc i u).epool = s.epool := rfl
@[simp] theorem State.setOsc_dly (s : State) (i : Nat) (u : Osc) : (s.setOsc i u).dly = s.dly := rfl
@[simp] theorem State.setOsc_flt (s : State) (i : Nat) (u : Osc) : (s.setOsc i u).flt = s.flt := rfl
@[simp] theorem State.setOsc_rev (s : State) (i : Nat) (u : Osc) : (s.setOsc i u).rev = s.rev := rfl
@[simp] theorem State.setOsc_mixer (s : State) (i : Nat) (u : Osc) : (s.setOsc i u).mixer = s.mixer := rfl
@[simp] theorem State.setOsc_fifo (s : State) (i : Nat) (u : Osc) : (s.setOsc i u).fifo = s.fifo := rfl
@[simp] theorem State.setOsc_ring (s : State) (i : Nat) (u : Osc) : (s.setOsc i u).ring = s.ring := rfl
@[simp] theorem State.setOsc_chain (s : State) (i : Nat) (u : Osc) : (s.setOsc i u).chain = s.chain := rfl
@[simp] theorem State.setOsc_eng (s : State) (i : Nat) (u : Osc) : (s.setOsc i u).eng = s.eng := rfl
@[simp] theorem State.setOsc_cpBase (s : State) (i : Nat) (u : Osc) : (s.setOsc i u).cpBase = s.cpBase := rfl
@[simp] theorem State.setOsc_inputs (s : State) (i : Nat) (u : Osc) : (s.setOsc i u).inputs = s.inputs := rfl
@[simp] theorem State.setOsc_rdata (s : State) (i : Nat) (u : Osc) : (s.setOsc i u).rdata = s.rdata := rfl
@[simp] theorem State.setOsc_out (s : State) (i : Nat) (u : Osc) : (s.setOsc i u).out = s.out := rfl
@[simp] theorem State.setOsc_draws (s : State) (i : Nat) (u : Osc) : (s.setOsc i u).draws = s.draws := rfl

@[simp] theorem State.setPoly_cmd (s : State) (i : Nat) (u : Poly) : (s.setPoly i u).cmd = s.cmd := rfl
@[simp] theorem State.setPoly_args (s : State) (i : Nat) (u : Poly) : (s.setPoly i u).args = s.args := rfl
@[simp] theorem State.setPoly_err (s : State) (i : Nat) (u : Poly) : (s.setPoly i u).err = s.err := rfl
@[simp] theorem State.setPoly_res (s : State) (i : Nat) (u : Poly) : (s.setPoly i u).res = s.res := rfl
@[simp] theorem State.setPoly_swin (s : State) (i : Nat) (u : Poly) : (s.setPoly i u).swin = s.swin := rfl
@[simp] theorem State.setPoly_osc (s : State) (i : Nat) (u : Poly) : (s.setPoly i u).osc = s.osc := rfl
@[simp] theorem State.setPoly_poly (s : State) (i : Nat) (u : Poly) : (s.setPoly i u).poly = poolSet s.poly i u := rfl
@[simp] theorem State.setPoly_env (s : State) (i : Nat) (u : Poly) : (s.setPoly i u).env = s.env := rfl
@[simp] theorem State.setPoly_epool (s : State) (i : Nat) (u : Poly) : (s.setPoly i u).epool = s.epool := rfl
@[simp] theorem State.setPoly_dly (s : State) (i : Nat) (u : Poly) : (s.setPoly i u).dly = s.dly := rfl
@[simp] theorem State.setPoly_flt (s : State) (i : Nat) (u : Poly) : (s.setPoly i u).flt = s.flt := rfl
@[simp] theorem State.setPoly_rev (s : State) (i : Nat) (u : Poly) : (s.setPoly i u).rev = s.rev := rfl
@[simp] theorem State.setPoly_mixer (s : State) (i : Nat) (u : Poly) : (s.setPoly i u).mixer = s.mixer := rfl
@[simp] theorem State.setPoly_fifo (s : State) (i : Nat) (u : Poly) : (s.setPoly i u).fifo = s.fifo := rfl
@[simp] theorem State.setPoly_ring (s : State) (i : Nat) (u : Poly) : (s.setPoly i u).ring = s.ring := rfl
@[simp] theorem State.setPoly_chain (s : State) (i : Nat) (u : Poly) : (s.setPoly i u).chain = s.chain := rfl
@[simp] theorem State.setPoly_eng (s : State) (i : Nat) (u : Poly) : (s.setPoly i u).eng = s.eng := rfl
@[simp] theorem State.setPoly_cpBase (s : State) (i : Nat) (u : Poly) : (s.setPoly i u).cpBase = s.cpBase := rfl
@[simp] theorem State.setPoly_inputs (s : State) (i : Nat) (u : Poly) : (s.setPoly i u).inputs = s.inputs := rfl
@[simp] theorem State.setPoly_rdata (s : State) (i : Nat) (u : Poly) : (s.setPoly i u).rdata = s.rdata := rfl
@[simp] theorem State.setPoly_out (s : State) (i : Nat) (u : Poly) : (s.setPoly i u).out = s.out := rfl
@[simp] theorem State.setPoly_draws (s : State) (i : Nat) (u : Poly) : (s.setPoly i u).draws = s.draws := rfl

@[simp] theorem State.setEnv_cmd (s : State) (i : Nat) (u : Env) : (s.setEnv i u).cmd = s.cmd := rfl
@[simp] theorem State.setEnv_args (s : State) (i : Nat) (u : Env) : (s.setEnv i u).args = s.args := rfl
@[simp] theorem State.setEnv_err (s : State) (i : Nat) (u : Env) : (s.setEnv i u).err = s.err := rfl
@[simp] theorem State.setEnv_res (s : State) (i : Nat) (u : Env) : (s.setEnv i u).res = s.res := rfl
@[simp] theorem State.setEnv_swin (s : State) (i : Nat) (u : Env) : (s.setEnv i u).swin = s.swin := rfl
@[simp] theorem State.setEnv_osc (s : State) (i : Nat) (u : Env) : (s.setEnv i u).osc = s.osc := rfl
@[simp] theorem State.setEnv_poly (s : State) (i : Nat) (u : Env) : (s.setEnv i u).poly = s.poly := rfl
@[simp] theorem State.setEnv_env (s : State) (i : Nat) (u : Env) : (s.setEnv i u).env = poolSet s.env i u := rfl
@[simp] theorem State.setEnv_epool (s : State) (i : Nat) (u : Env) : (s.setEnv i u).epool = s.epool := rfl
@[simp] theorem State.setEnv_dly (s : State) (i : Nat) (u : Env) : (s.setEnv i u).dly = s.dly := rfl
@[simp] theorem State.setEnv_flt (s : State) (i : Nat) (u : Env) : (s.setEnv i u).flt = s.flt := rfl
@[simp] theorem State.setEnv_rev (s : State) (i : Nat) (u : Env) : (s.setEnv i u).rev = s.rev := rfl
@[simp] theorem State.setEnv_mixer (s : State) (i : Nat) (u : Env) : (s.setEnv i u).mixer = s.mixer := rfl
@[simp] theorem State.setEnv_fifo (s : State) (i : Nat) (u : Env) : (s.setEnv i u).fifo = s.fifo := rfl
@[simp] theorem State.setEnv_ring (s : State) (i : Nat) (u : Env) : (s.setEnv i u).ring = s.ring := rfl
@[simp] theorem State.setEnv_chain (s : State) (i : Nat) (u : Env) : (s.setEnv i u).chain = s.chain := rfl
@[simp] theorem State.setEnv_eng (s : State) (i : Nat) (u : Env) : (s.setEnv i u).eng = s.eng := rfl
@[simp] theorem State.setEnv_cpBase (s : State) (i : Nat) (u : Env) : (s.setEnv i u).cpBase = s.cpBase := rfl
@[simp] theorem State.setEnv_inputs (s : State) (i : Nat) (u : Env) : (s.setEnv i u).inputs = s.inputs := rfl
@[simp] theorem State.setEnv_rdata (s : State) (i : Nat) (u : Env) : (s.setEnv i u).rdata = s.rdata := rfl
@[simp] theorem State.setEnv_out (s : State) (i : Nat) (u : Env) : (s.setEnv i u).out = s.out := rfl
@[simp] theorem State.setEnv_draws (s : State) (i : Nat) (u : Env) : (s.setEnv i u).draws = s.draws := rfl

@[simp] theorem State.setEpool_cmd (s : State) (i : Nat) (u : EPool) : (s.setEpool i u).cmd = s.cmd := rfl
@[simp] theorem State.setEpool_args (s : State) (i : Nat) (u : EPool) : (s.setEpool i u).args = s.args := rfl
@[simp] theorem State.setEpool_err (s : State) (i : Nat) (u : EPool) : (s.setEpool i u).err = s.err := rfl
@[simp] theorem State.setEpool_res (s : State) (i : Nat) (u : EPool) : (s.setEpool i u).res = s.res := rfl
@[simp] theorem State.setEpool_swin (s : State) (i : Nat) (u : EPool) : (s.setEpool i u).swin = s.swin := rfl
@[simp] theorem State.setEpool_osc (s : State) (i : Nat) (u : EPool) : (s.setEpool i u).osc = s.osc := rfl
@[simp] theorem State.setEpool_poly (s : State) (i : Nat) (u : EPool) : (s.setEpool i u).poly = s.poly := rfl
@[simp] theorem State.setEpool_env (s : State) (i : Nat) (u : EPool) : (s.setEpool i u).env = s.env := rfl
@[simp] theorem State.setEpool_epool (s : State) (i : Nat) (u : EPool) : (s.setEpool i u).epool = poolSet s.epool i u := rfl
@[simp] theorem State.setEpool_dly (s : State) (i : Nat) (u : EPool) : (s.setEpool i u).dly = s.dly := rfl
@[simp] theorem State.setEpool_flt (s : State) (i : Nat) (u : EPool) : (s.setEpool i u).flt = s.flt := rfl
@[simp] theorem State.setEpool_rev (s : State) (i : Nat) (u : EPool) : (s.setEpool i u).rev = s.rev := rfl
@[simp] theorem State.setEpool_mixer (s : State) (i : Nat) (u : EPool) : (s.setEpool i u).mixer = s.mixer := rfl
@[simp] theorem State.setEpool_fifo (s : State) (i : Nat) (u : EPool) : (s.setEpool i u).fifo = s.fifo := rfl
@[simp] theorem State.setEpool_ring (s : State) (i : Nat) (u : EPool) : (s.setEpool i u).ring = s.ring := rfl
@[simp] theorem State.setEpool_chain (s : State) (i : Nat) (u : EPool) : (s.setEpool i u).chain = s.chain := rfl
@[simp] theorem State.setEpool_eng (s : State) (i : Nat) (u : EPool) : (s.setEpool i u).eng = s.eng := rfl
@[simp] theorem State.setEpool_cpBase (s : State) (i : Nat) (u : EPool) : (s.setEpool i u).cpBase = s.cpBase := rfl
@[simp] theorem State.setEpool_inputs (s : State) (i : Nat) (u : EPool) : (s.setEpool i u).inputs = s.inputs := rfl
@[simp] theorem State.setEpool_rdata (s : State) (i : Nat) (u : EPool) : (s.setEpool i u).rdata = s.rdata := rfl
@[simp] theorem State.setEpool_out (s : State) (i : Nat) (u : EPool) : (s.setEpool i u).out = s.out := rfl
@[simp] theorem State.setEpool_draws (s : State) (i : Nat) (u : EPool) : (s.setEpool i u).draws = s.draws := rfl

@[simp] theorem State.setDly_cmd (s : State) (i : Nat) (u : Dly) : (s.setDly i u).cmd = s.cmd := rfl
@[simp] theorem State.setDly_args (s : State) (i : Nat) (u : Dly) : (s.setDly i u).args = s.args := rfl
@[simp] theorem State.setDly_err (s : State) (i : Nat) (u : Dly) : (s.setDly i u).err = s.err := rfl
@[simp] theorem State.setDly_res (s : State) (i : Nat) (u : Dly) : (s.setDly i u).res = s.res := rfl
@[simp] theorem State.setDly_swin (s : State) (i : Nat) (u : Dly) : (s.setDly i u).swin = s.swin := rfl
@[simp] theorem State.setDly_osc (s : State) (i : Nat) (u : Dly) : (s.setDly i u).osc = s.osc := rfl
@[simp] theorem State.setDly_poly (s : State) (i : Nat) (u : Dly) : (s.setDly i u).poly = s.poly := rfl
@[simp] theorem State.setDly_env (s : State) (i : Nat) (u : Dly) : (s.setDly i u).env = s.env := rfl
@[simp] theorem State.setDly_epool (s : State) (i : Nat) (u : Dly) : (s.setDly i u).epool = s.epool := rfl
@[simp] theorem State.setDly_dly (s : State) (i : Nat) (u : Dly) : (s.setDly i u).dly = poolSet s.dly i u := rfl
@[simp] theorem State.setDly_flt (s : State) (i : Nat) (u : Dly) : (s.setDly i u).flt = s.flt := rfl
@[simp] theorem State.setDly_rev (s : State) (i : Nat) (u : Dly) : (s.setDly i u).rev = s.rev := rfl
@[simp] theorem State.setDly_mixer (s : State) (i : Nat) (u : Dly) : (s.setDly i u).mixer = s.mixer := rfl
@[simp] theorem State.setDly_fifo (s : State) (i : Nat) (u : Dly) : (s.setDly i u).fifo = s.fifo := rfl
@[simp] theorem State.setDly_ring (s : State) (i : Nat) (u : Dly) : (s.setDly i u).ring = s.ring := rfl
@[simp] theorem State.setDly_chain (s : State) (i : Nat) (u : Dly) : (s.setDly i u).chain = s.chain := rfl
@[simp] theorem State.setDly_eng (s : State) (i : Nat) (u : Dly) : (s.setDly i u).eng = s.eng := rfl
@[simp] theorem State.setDly_cpBase (s : State) (i : Nat) (u : Dly) : (s.setDly i u).cpBase = s.cpBase := rfl
@[simp] theorem State.setDly_inputs (s : State) (i : Nat) (u : Dly) : (s.setDly i u).inputs = s.inputs := rfl
@[simp] theorem State.setDly_rdata (s : State) (i : Nat) (u : Dly) : (s.setDly i u).rdata = s.rdata := rfl
@[simp] theorem State.setDly_out (s : State) (i : Nat) (u : Dly) : (s.setDly i u).out = s.out := rfl
@[simp] theorem State.setDly_draws (s : State) (i : Nat) (u : Dly) : (s.setDly i u).draws = s.draws := rfl

@[simp] theorem State.setFlt_cmd (s : State) (i : Nat) (u : Flt) : (s.setFlt i u).cmd = s.cmd := rfl
@[simp] theorem State.setFlt_args (s : State) (i : Nat) (u : Flt) : (s.setFlt i u).args = s.args := rfl
@[simp] theorem State.setFlt_err (s : State) (i : Nat) (u : Flt) : (s.setFlt i u).err = s.err := rfl
@[simp] theorem State.setFlt_res (s : State) (i : Nat) (u : Flt) : (s.setFlt i u).res = s.res := rfl
@[simp] theorem State.setFlt_swin (s : State) (i : Nat) (u : Flt) : (s.setFlt i u).swin = s.swin := rfl
@[simp] theorem State.setFlt_osc (s : State) (i : Nat) (u : Flt) : (s.setFlt i u).osc = s.osc := rfl
@[simp] theorem State.setFlt_poly (s : State) (i : Nat) (u : Flt) : (s.setFlt i u).poly = s.poly := rfl
@[simp] theorem State.setFlt_env (s : State) (i : Nat) (u : Flt) : (s.setFlt i u).env = s.env := rfl
@[simp] theorem State.setFlt_epool (s : State) (i : Nat) (u : Flt) : (s.setFlt i u).epool = s.epool := rfl
@[simp] theorem State.setFlt_dly (s : State) (i : Nat) (u : Flt) : (s.setFlt i u).dly = s.dly := rfl
@[simp] theorem State.setFlt_flt (s : State) (i : Nat) (u : Flt) : (s.setFlt i u).flt = poolSet s.flt i u := rfl
@[simp] theorem State.setFlt_rev (s : State) (i : Nat) (u : Flt) : (s.setFlt i u).rev = s.rev := rfl
@[simp] theorem State.setFlt_mixer (s : State) (i : Nat) (u : Flt) : (s.setFlt i u).mixer = s.mixer := rfl
@[simp] theorem State.setFlt_fifo (s : State) (i : Nat) (u : Flt) : (s.setFlt i u).fifo = s.fifo := rfl
@[simp] theorem State.setFlt_ring (s : State) (i : Nat) (u : Flt) : (s.setFlt i u).ring = s.ring := rfl
@[simp] theorem State.setFlt_chain (s : State) (i : Nat) (u : Flt) : (s.setFlt i u).chain = s.chain := rfl
@[simp] theorem State.setFlt_eng (s : State) (i : Nat) (u : Flt) : (s.setFlt i u).eng = s.eng := rfl
@[simp] theorem State.setFlt_cpBase (s : State) (i : Nat) (u : Flt) : (s.setFlt i u).cpBase = s.cpBase := rfl
@[simp] theorem State.setFlt_inputs (s : State) (i : Nat) (u : Flt) : (s.setFlt i u).inputs = s.inputs := rfl
@[simp] theorem State.setFlt_rdata (s : State) (i : Nat) (u : Flt) : (s.setFlt i u).rdata = s.rdata := rfl
@[simp] theorem State.setFlt_out (s : State) (i : Nat) (u : Flt) : (s.setFlt i u).out = s.out := rfl
@[simp] theorem State.setFlt_draws (s : State) (i : Nat) (u : Flt) : (s.setFlt i u).draws = s.draws := rfl

@[simp] theorem State.setRev_cmd (s : State) (i : Nat) (u : Rev) : (s.setRev i u).cmd = s.cmd := rfl
@[simp] theorem State.setRev_args (s : State) (i : Nat) (u : Rev) : (s.setRev i u).args = s.args := rfl
@[simp] theorem State.setRev_err (s : State) (i : Nat) (u : Rev) : (s.setRev i u).err = s.err := rfl
@[simp] theorem State.setRev_res (s : State) (i : Nat) (u : Rev) : (s.setRev i u).res = s.res := rfl
@[simp] theorem State.setRev_swin (s : State) (i : Nat) (u : Rev) : (s.setRev i u).swin = s.swin := rfl
@[simp] theorem State.setRev_osc (s : State) (i : Nat) (u : Rev) : (s.setRev i u).osc = s.osc := rfl
@[simp] theorem State.setRev_poly (s : State) (i : Nat) (u : Rev) : (s.setRev i u).poly = s.poly := rfl
@[simp] theorem State.setRev_env (s : State) (i : Nat) (u : Rev) : (s.setRev i u).env = s.env := rfl
@[simp] theorem State.setRev_epool (s : State) (i : Nat) (u : Rev) : (s.setRev i u).epool = s.epool := rfl
@[simp] theorem State.setRev_dly (s : State) (i : Nat) (u : Rev) : (s.setRev i u).dly = s.dly := rfl
@[simp] theorem State.setRev_flt (s : State) (i : Nat) (u : Rev) : (s.setRev i u).flt = s.flt := rfl
@[simp] theorem State.setRev_rev (s : State) (i : Nat) (u : Rev) : (s.setRev i u).rev = poolSet s.rev i u := rfl
@[simp] theorem State.setRev_mixer (s : State) (i : Nat) (u : Rev) : (s.setRev i u).mixer = s.mixer := rfl
@[simp] theorem State.setRev_fifo (s : State) (i : Nat) (u : Rev) : (s.setRev i u).fifo = s.fifo := rfl
@[simp] theorem State.setRev_ring (s : State) (i : Nat) (u : Rev) : (s.setRev i u).ring = s.ring := rfl
@[simp] theorem State.setRev_chain (s : State) (i : Nat) (u : Rev) : (s.setRev i u).chain = s.chain := rfl
@[simp] theorem State.setRev_eng (s : State) (i : Nat) (u : Rev) : (s.setRev i u).eng = s.eng := rfl
@[simp] theorem State.setRev_cpBase (s : State) (i : Nat) (u : Rev) : (s.setRev i u).cpBase = s.cpBase := rfl
@[simp] theorem State.setRev_inputs (s : State) (i : Nat) (u : Rev) : (s.setRev i u).inputs = s.inputs := rfl
@[simp] theorem State.setRev_rdata (s : State) (i : Nat) (u : Rev) : (s.setRev i u).rdata = s.rdata := rfl
@[simp] theorem State.setRev_out (s : State) (i : Nat) (u : Rev) : (s.setRev i u).out = s.out := rfl
@[simp] theorem State.setRev_draws (s : State) (i : Nat) (u : Rev) : (s.setRev i u).draws = s.draws := rfl

@[simp] theorem State.setMixer_cmd (s : State) (u : Mixer) : (s.setMixer u).cmd = s.cmd := rfl
@[simp] theorem State.setMixer_args (s : State) (u : Mixer) : (s.setMixer u).args = s.args := rfl
@[simp] theorem State.setMixer_err (s : State) (u : Mixer) : (s.setMixer u).err = s.err := rfl
@[simp] theorem State.setMixer_res (s : State) (u : Mixer) : (s.setMixer u).res = s.res := rfl
@[simp] theorem State.setMixer_swin (s : State) (u : Mixer) : (s.setMixer u).swin = s.swin := rfl
@[simp] theorem State.setMixer_osc (s : State) (u : Mixer) : (s.setMixer u).osc = s.osc := rfl
@[simp] theorem State.setMixer_poly (s : State) (u : Mixer) : (s.setMixer u).poly = s.poly := rfl
@[simp] theorem State.setMixer_env (s : State) (u : Mixer) : (s.setMixer u).env = s.env := rfl
@[simp] theorem State.setMixer_epool (s : State) (u : Mixer) : (s.setMixer u).epool = s.epool := rfl
@[simp] theorem State.setMixer_dly (s : State) (u : Mixer) : (s.setMixer u).dly = s.dly := rfl
@[simp] theorem State.setMixer_flt (s : State) (u : Mixer) : (s.setMixer u).flt = s.flt := rfl
@[simp] theorem State.setMixer_rev (s : State) (u : Mixer) : (s.setMixer u).rev = s.rev := rfl
@[simp] theorem State.setMixer_mixer (s : State) (u : Mixer) : (s.setMixer u).mixer = some u := rfl
@[simp] theorem State.setMixer_fifo (s : State) (u : Mixer) : (s.setMixer u).fifo = s.fifo := rfl
@[simp] theorem State.setMixer_ring (s : State) (u : Mixer) : (s.setMixer u).ring = s.ring := rfl
@[simp] theorem State.setMixer_chain (s : State) (u : Mixer) : (s.setMixer u).chain = s.chain := rfl
@[simp] theorem State.setMixer_eng (s : State) (u : Mixer) : (s.setMixer u).eng = s.eng := rfl
@[simp] theorem State.setMixer_cpBase (s : State) (u : Mixer) : (s.setMixer u).cpBase = s.cpBase := rfl
@[simp] theorem State.setMixer_inputs (s : State) (u : Mixer) : (s.setMixer u).inputs = s.inputs := rfl
@[simp] theorem State.setMixer_rdata (s : State) (u : Mixer) : (s.setMixer u).rdata = s.rdata := rfl
@[simp] theorem State.setMixer_out (s : State) (u : Mixer) : (s.setMixer u).out = s.out := rfl
@[simp] theorem State.setMixer_draws (s : State) (u : Mixer) : (s.setMixer u).draws = s.draws := rfl

@[simp] theorem State.setFifo_cmd (s : State) (u : Fifo) : (s.setFifo u).cmd = s.cmd := rfl
@[simp] theorem State.setFifo_args (s : State) (u : Fifo) : (s.setFifo u).args = s.args := rfl
@[simp] theorem State.setFifo_err (s : State) (u : Fifo) : (s.setFifo u).err = s.err := rfl
@[simp] theorem State.setFifo_res (s : State) (u : Fifo) : (s.setFifo u).res = s.res := rfl
@[simp] theorem State.setFifo_swin (s : State) (u : Fifo) : (s.setFifo u).swin = s.swin := rfl
@[simp] theorem State.setFifo_osc (s : State) (u : Fifo) : (s.setFifo u).osc = s.osc := rfl
@[simp] theorem State.setFifo_poly (s : State) (u : Fifo) : (s.setFifo u).poly = s.poly := rfl
@[simp] theorem State.setFifo_env (s : State) (u : Fifo) : (s.setFifo u).env = s.env := rfl
@[simp] theorem State.setFifo_epool (s : State) (u : Fifo) : (s.setFifo u).epool = s.epool := rfl
@[simp] theorem State.setFifo_dly (s : State) (u : Fifo) : (s.setFifo u).dly = s.dly := rfl
@[simp] theorem State.setFifo_flt (s : State) (u : Fifo) : (s.setFifo u).flt = s.flt := rfl
@[simp] theorem State.setFifo_rev (s : State) (u : Fifo) : (s.setFifo u).rev = s.rev := rfl
@[simp] theorem State.setFifo_mixer (s : State) (u : Fifo) : (s.setFifo u).mixer = s.mixer := rfl
@[simp] theorem State.setFifo_fifo (s : State) (u : Fifo) : (s.setFifo u).fifo = some u := rfl
@[simp] theorem State.setFifo_ring (s : State) (u : Fifo) : (s.setFifo u).ring = s.ring := rfl
@[simp] theorem State.setFifo_chain (s : State) (u : Fifo) : (s.setFifo u).chain = s.chain := rfl
@[simp] theorem State.setFifo_eng (s : State) (u : Fifo) : (s.setFifo u).eng = s.eng := rfl
@[simp] theorem State.setFifo_cpBase (s : State) (u : Fifo) : (s.setFifo u).cpBase = s.cpBase := rfl
@[simp] theorem State.setFifo_inputs (s : State) (u : Fifo) : (s.setFifo u).inputs = s.inputs := rfl
@[simp] theorem State.setFifo_rdata (s : State) (u : Fifo) : (s.setFifo u).rdata = s.rdata := rfl
@[simp] theorem State.setFifo_out (s : State) (u : Fifo) : (s.setFifo u).out = s.out := rfl
@[simp] theorem State.setFifo_draws (s : State) (u : Fifo) : (s.setFifo u).draws = s.draws := rfl

@[simp] theorem State.setRing_cmd (s : State) (u : Ring) : (s.setRing u).cmd = s.cmd := rfl
@[simp] theorem State.setRing_args (s : State) (u : Ring) : (s.setRing u).args = s.args := rfl
@[simp] theorem State.setRing_err (s : State) (u : Ring) : (s.setRing u).err = s.err := rfl
@[simp] theorem State.setRing_res (s : State) (u : Ring) : (s.setRing u).res = s.res := rfl
@[simp] theorem State.setRing_swin (s : State) (u : Ring) : (s.setRing u).swin = s.swin := rfl
@[simp] theorem State.setRing_osc (s : State) (u : Ring) : (s.setRing u).osc = s.osc := rfl
@[simp] theorem State.setRing_poly (s : State) (u : Ring) : (s.setRing u).poly = s.poly := rfl
@[simp] theorem State.setRing_env (s : State) (u : Ring) : (s.setRing u).env = s.env := rfl
@[simp] theorem State.setRing_epool (s : State) (u : Ring) : (s.setRing u).epool = s.epool := rfl
@[simp] theorem State.setRing_dly (s : State) (u : Ring) : (s.setRing u).dly = s.dly := rfl
@[simp] theorem State.setRing_flt (s : State) (u : Ring) : (s.setRing u).flt = s.flt := rfl
@[simp] theorem State.setRing_rev (s : State) (u : Ring) : (s.setRing u).rev = s.rev := rfl
@[simp] theorem State.setRing_mixer (s : State) (u : Ring) : (s.setRing u).mixer = s.mixer := rfl
@[simp] theorem State.setRing_fifo (s : State) (u : Ring) : (s.setRing u).fifo = s.fifo := rfl
@[simp] theorem State.setRing_ring (s : State) (u : Ring) : (s.setRing u).ring = some u := rfl
@[simp] theorem State.setRing_chain (s : State) (u : Ring) : (s.setRing u).chain = s.chain := rfl
@[simp] theorem State.setRing_eng (s : State) (u : Ring) : (s.setRing u).eng = s.eng := rfl
@[simp] theorem State.setRing_cpBase (s : State) (u : Ring) : (s.setRing u).cpBase = s.cpBase := rfl
@[simp] theorem State.setRing_inputs (s : State) (u : Ring) : (s.setRing u).inputs = s.inputs := rfl
@[simp] theorem State.setRing_rdata (s : State) (u : Ring) : (s.setRing u).rdata = s.rdata := rfl
@[simp] theorem State.setRing_out (s : State) (u : Ring) : (s.setRing u).out = s.out := rfl
@[simp] theorem State.setRing_draws (s : State) (u : Ring) : (s.setRing u).draws = s.draws := rfl

@[simp] theorem State.setChain_cmd (s : State) (c : List FxRef) : (s.setChain c).cmd = s.cmd := rfl
@[simp] theorem State.setChain_args (s : State) (c : List FxRef) : (s.setChain c).args = s.args := rfl
@[simp] theorem State.setChain_err (s : State) (c : List FxRef) : (s.setChain c).err = s.err := rfl
@[simp] theorem State.setChain_res (s : State) (c : List FxRef) : (s.setChain c).res = s.res := rfl
@[simp] theorem State.setChain_swin (s : State) (c : List FxRef) : (s.setChain c).swin = s.swin := rfl
@[simp] theorem State.setChain_osc (s : State) (c : List FxRef) : (s.setChain c).osc = s.osc := rfl
@[simp] theorem State.setChain_poly (s : State) (c : List FxRef) : (s.setChain c).poly = s.poly := rfl
@[simp] theorem State.setChain_env (s : State) (c : List FxRef) : (s.setChain c).env = s.env := rfl
@[simp] theorem State.setChain_epool (s : State) (c : List FxRef) : (s.setChain c).epool = s.epool := rfl
@[simp] theorem State.setChain_dly (s : State) (c : List FxRef) : (s.setChain c).dly = s.dly := rfl
@[simp] theorem State.setChain_flt (s : State) (c : List FxRef) : (s.setChain c).flt = s.flt := rfl
@[simp] theorem State.setChain_rev (s : State) (c : List FxRef) : (s.setChain c).rev = s.rev := rfl
@[simp] theorem State.setChain_mixer (s : State) (c : List FxRef) : (s.setChain c).mixer = s.mixer := rfl
@[simp] theorem State.setChain_fifo (s : State) (c : List FxRef) : (s.setChain c).fifo = s.fifo := rfl
@[simp] theorem State.setChain_ring (s : State) (c : List FxRef) : (s.setChain c).ring = s.ring := rfl
@[simp] theorem State.setChain_chain (s : State) (c : List FxRef) : (s.setChain c).chain = c := rfl
@[simp] theorem State.setChain_eng (s : State) (c : List FxRef) : (s.setChain c).eng = s.eng := rfl
@[simp] theorem State.setChain_cpBase (s : State) (c : List FxRef) : (s.setChain c).cpBase = s.cpBase := rfl
@[simp] theorem State.setChain_inputs (s : State) (c : List FxRef) : (s.setChain c).inputs = s.inputs := rfl
@[simp] theorem State.setChain_rdata (s : State) (c : List FxRef) : (s.setChain c).rdata = s.rdata := rfl
@[simp] theorem State.setChain_out (s : State) (c : List FxRef) : (s.setChain c).out = s.out := rfl
@[simp] theorem State.setChain_draws (s : State) (c : List FxRef) : (s.setChain c).draws = s.draws := rfl

@[simp] theorem State.setEng_cmd (s : State) (e : Engine) : (s.setEng e).cmd = s.cmd := rfl
@[simp] theorem State.setEng_args (s : State) (e : Engine) : (s.setEng e).args = s.args := rfl
@[simp] theorem State.setEng_err (s : State) (e : Engine) : (s.setEng e).err = s.err := rfl
@[simp] theorem State.setEng_res (s : State) (e : Engine) : (s.setEng e).res = s.res := rfl
@[simp] theorem State.setEng_swin (s : State) (e : Engine) : (s.setEng e).swin = s.swin := rfl
@[simp] theorem State.setEng_osc (s : State) (e : Engine) : (s.setEng e).osc = s.osc := rfl
@[simp] theorem State.setEng_poly (s : State) (e : Engine) : (s.setEng e).poly = s.poly := rfl
@[simp] theorem State.setEng_env (s : State) (e : Engine) : (s.setEng e).env = s.env := rfl
@[simp] theorem State.setEng_epool (s : State) (e : Engine) : (s.setEng e).epool = s.epool := rfl
@[simp] theorem State.setEng_dly (s : State) (e : Engine) : (s.setEng e).dly = s.dly := rfl
@[simp] theorem State.setEng_flt (s : State) (e : Engine) : (s.setEng e).flt = s.flt := rfl
@[simp] theorem State.setEng_rev (s : State) (e : Engine) : (s.setEng e).rev = s.rev := rfl
@[simp] theorem State.setEng_mixer (s : State) (e : Engine) : (s.setEng e).mixer = s.mixer := rfl
@[simp] theorem State.setEng_fifo (s : State) (e : Engine) : (s.setEng e).fifo = s.fifo := rfl
@[simp] theorem State.setEng_ring (s : State) (e : Engine) : (s.setEng e).ring = s.ring := rfl
@[simp] theorem State.setEng_chain (s : State) (e : Engine) : (s.setEng e).chain = s.chain := rfl
@[simp] theorem State.setEng_eng (s : State) (e : Engine) : (s.setEng e).eng = e := rfl
@[simp] theorem State.setEng_cpBase (s : State) (e : Engine) : (s.setEng e).cpBase = s.cpBase := rfl
@[simp] theorem State.setEng_inputs (s : State) (e : Engine) : (s.setEng e).inputs = s.inputs := rfl
@[simp] theorem State.setEng_rdata (s : State) (e : Engine) : (s.setEng e).rdata = s.rdata := rfl
@[simp] theorem State.setEng_out (s : State) (e : Engine) : (s.setEng e).out = s.out := rfl
@[simp] theorem State.setEng_draws (s : State) (e : Engine) : (s.setEng e).draws = s.draws := rfl

@[simp] theorem State.setSwin_cmd (s : State) (m : Memory) : (s.setSwin m).cmd = s.cmd := rfl
@[simp] theorem State.setSwin_args (s : State) (m : Memory) : (s.setSwin m).args = s.args := rfl
@[simp] theorem State.setSwin_err (s : State) (m : Memory) : (s.setSwin m).err = s.err := rfl
@[simp] theorem State.setSwin_res (s : State) (m : Memory) : (s.setSwin m).res = s.res := rfl
@[simp] theorem State.setSwin_swin (s : State) (m : Memory) : (s.setSwin m).swin = m := rfl
@[simp] theorem State.setSwin_osc (s : State) (m : Memory) : (s.setSwin m).osc = s.osc := rfl
@[simp] theorem State.setSwin_poly (s : State) (m : Memory) : (s.setSwin m).poly = s.poly := rfl
@[simp] theorem State.setSwin_env (s : State) (m : Memory) : (s.setSwin m).env = s.env := rfl
@[simp] theorem State.setSwin_epool (s : State) (m : Memory) : (s.setSwin m).epool = s.epool := rfl
@[simp] theorem State.setSwin_dly (s : State) (m : Memory) : (s.setSwin m).dly = s.dly := rfl
@[simp] theorem State.setSwin_flt (s : State) (m : Memory) : (s.setSwin m).flt = s.flt := rfl
@[simp] theorem State.setSwin_rev (s : State) (m : Memory) : (s.setSwin m).rev = s.rev := rfl
@[simp] theorem State.setSwin_mixer (s : State) (m : Memory) : (s.setSwin m).mixer = s.mixer := rfl
@[simp] theorem State.setSwin_fifo (s : State) (m : Memory) : (s.setSwin m).fifo = s.fifo := rfl
@[simp] theorem State.setSwin_ring (s : State) (m : Memory) : (s.setSwin m).ring = s.ring := rfl
@[simp] theorem State.setSwin_chain (s : State) (m : Memory) : (s.setSwin m).chain = s.chain := rfl
@[simp] theorem State.setSwin_eng (s : State) (m : Memory) : (s.setSwin m).eng = s.eng := rfl
@[simp] theorem State.setSwin_cpBase (s : State) (m : Memory) : (s.setSwin m).cpBase = s.cpBase := rfl
@[simp] theorem State.setSwin_inputs (s : State) (m : Memory) : (s.setSwin m).inputs = s.inputs := rfl
@[simp] theorem State.setSwin_rdata (s : State) (m : Memory) : (s.setSwin m).rdata = s.rdata := rfl
@[simp] theorem State.setSwin_out (s : State) (m : Memory) : (s.setSwin m).out = s.out := rfl
@[simp] theorem State.setSwin_draws (s : State) (m : Memory) : (s.setSwin m).draws = s.draws := rfl

@[simp] theorem State.succeed_cmd (s : State) (r : Res) : (s.succeed r).cmd = s.cmd := rfl
@[simp] theorem State.succeed_args (s : State) (r : Res) : (s.succeed r).args = s.args := rfl
@[simp] theorem State.succeed_err (s : State) (r : Res) : (s.succeed r).err = .ok := rfl
@[simp] theorem State.succeed_res (s : State) (r : Res) : (s.succeed r).res = r := rfl
@[simp] theorem State.succeed_swin (s : State) (r : Res) : (s.succeed r).swin = s.swin := rfl
@[simp] theorem State.succeed_osc (s : State) (r : Res) : (s.succeed r).osc = s.osc := rfl
@[simp] theorem State.succeed_poly (s : State) (r : Res) : (s.succeed r).poly = s.poly := rfl
@[simp] theorem State.succeed_env (s : State) (r : Res) : (s.succeed r).env = s.env := rfl
@[simp] theorem State.succeed_epool (s : State) (r : Res) : (s.succeed r).epool = s.epool := rfl
@[simp] theorem State.succeed_dly (s : State) (r : Res) : (s.succeed r).dly = s.dly := rfl
@[simp] theorem State.succeed_flt (s : State) (r : Res) : (s.succeed r).flt = s.flt := rfl
@[simp] theorem State.succeed_rev (s : State) (r : Res) : (s.succeed r).rev = s.rev := rfl
@[simp] theorem State.succeed_mixer (s : State) (r : Res) : (s.succeed r).mixer = s.mixer := rfl
@[simp] theorem State.succeed_fifo (s : State) (r : Res) : (s.succeed r).fifo = s.fifo := rfl
@[simp] theorem State.succeed_ring (s : State) (r : Res) : (s.succeed r).ring = s.ring := rfl
@[simp] theorem State.succeed_chain (s : State) (r : Res) : (s.succeed r).chain = s.chain := rfl
@[simp] theorem State.succeed_eng (s : State) (r : Res) : (s.succeed r).eng = s.eng := rfl
@[simp] theorem State.succeed_cpBase (s : State) (r : Res) : (s.succeed r).cpBase = s.cpBase := rfl
@[simp] theorem State.succeed_inputs (s : State) (r : Res) : (s.succeed r).inputs = s.inputs := rfl
@[simp] theorem State.succeed_rdata (s : State) (r : Res) : (s.succeed r).rdata = s.rdata := rfl
@[simp] theorem State.succeed_out (s : State) (r : Res) : (s.succeed r).out = s.out := rfl
@[simp] theorem State.succeed_draws (s : State) (r : Res) : (s.succeed r).draws = s.draws := rfl

@[simp] theorem State.raise_cmd (s : State) (e : ErrCode) (r0 : Word) : (s.raise e r0).cmd = s.cmd := rfl
@[simp] theorem State.raise_args (s : State) (e : ErrCode) (r0 : Word) : (s.raise e r0).args = s.args := rfl
@[simp] theorem State.raise_err (s : State) (e : ErrCode) (r0 : Word) : (s.raise e r0).err = e := rfl
@[simp] theorem State.raise_res (s : State) (e : ErrCode) (r0 : Word) : (s.raise e r0).res = resOne r0 := rfl
@[simp] theorem State.raise_swin (s : State) (e : ErrCode) (r0 : Word) : (s.raise e r0).swin = s.swin := rfl
@[simp] theorem State.raise_osc (s : State) (e : ErrCode) (r0 : Word) : (s.raise e r0).osc = s.osc := rfl
@[simp] theorem State.raise_poly (s : State) (e : ErrCode) (r0 : Word) : (s.raise e r0).poly = s.poly := rfl
@[simp] theorem State.raise_env (s : State) (e : ErrCode) (r0 : Word) : (s.raise e r0).env = s.env := rfl
@[simp] theorem State.raise_epool (s : State) (e : ErrCode) (r0 : Word) : (s.raise e r0).epool = s.epool := rfl
@[simp] theorem State.raise_dly (s : State) (e : ErrCode) (r0 : Word) : (s.raise e r0).dly = s.dly := rfl
@[simp] theorem State.raise_flt (s : State) (e : ErrCode) (r0 : Word) : (s.raise e r0).flt = s.flt := rfl
@[simp] theorem State.raise_rev (s : State) (e : ErrCode) (r0 : Word) : (s.raise e r0).rev = s.rev := rfl
@[simp] theorem State.raise_mixer (s : State) (e : ErrCode) (r0 : Word) : (s.raise e r0).mixer = s.mixer := rfl
@[simp] theorem State.raise_fifo (s : State) (e : ErrCode) (r0 : Word) : (s.raise e r0).fifo = s.fifo := rfl
@[simp] theorem State.raise_ring (s : State) (e : ErrCode) (r0 : Word) : (s.raise e r0).ring = s.ring := rfl
@[simp] theorem State.raise_chain (s : State) (e : ErrCode) (r0 : Word) : (s.raise e r0).chain = s.chain := rfl
@[simp] theorem State.raise_eng (s : State) (e : ErrCode) (r0 : Word) : (s.raise e r0).eng = s.eng := rfl
@[simp] theorem State.raise_cpBase (s : State) (e : ErrCode) (r0 : Word) : (s.raise e r0).cpBase = s.cpBase := rfl
@[simp] theorem State.raise_inputs (s : State) (e : ErrCode) (r0 : Word) : (s.raise e r0).inputs = s.inputs := rfl
@[simp] theorem State.raise_rdata (s : State) (e : ErrCode) (r0 : Word) : (s.raise e r0).rdata = s.rdata := rfl
@[simp] theorem State.raise_out (s : State) (e : ErrCode) (r0 : Word) : (s.raise e r0).out = s.out := rfl
@[simp] theorem State.raise_draws (s : State) (e : ErrCode) (r0 : Word) : (s.raise e r0).draws = s.draws := rfl

@[simp] theorem State.deviceAsked_cmd (s : State) : (s.deviceAsked).cmd = s.cmd := rfl
@[simp] theorem State.deviceAsked_args (s : State) : (s.deviceAsked).args = s.args := rfl
@[simp] theorem State.deviceAsked_err (s : State) : (s.deviceAsked).err = s.err := rfl
@[simp] theorem State.deviceAsked_res (s : State) : (s.deviceAsked).res = s.res := rfl
@[simp] theorem State.deviceAsked_swin (s : State) : (s.deviceAsked).swin = s.swin := rfl
@[simp] theorem State.deviceAsked_osc (s : State) : (s.deviceAsked).osc = s.osc := rfl
@[simp] theorem State.deviceAsked_poly (s : State) : (s.deviceAsked).poly = s.poly := rfl
@[simp] theorem State.deviceAsked_env (s : State) : (s.deviceAsked).env = s.env := rfl
@[simp] theorem State.deviceAsked_epool (s : State) : (s.deviceAsked).epool = s.epool := rfl
@[simp] theorem State.deviceAsked_dly (s : State) : (s.deviceAsked).dly = s.dly := rfl
@[simp] theorem State.deviceAsked_flt (s : State) : (s.deviceAsked).flt = s.flt := rfl
@[simp] theorem State.deviceAsked_rev (s : State) : (s.deviceAsked).rev = s.rev := rfl
@[simp] theorem State.deviceAsked_mixer (s : State) : (s.deviceAsked).mixer = s.mixer := rfl
@[simp] theorem State.deviceAsked_fifo (s : State) : (s.deviceAsked).fifo = s.fifo := rfl
@[simp] theorem State.deviceAsked_ring (s : State) : (s.deviceAsked).ring = s.ring := rfl
@[simp] theorem State.deviceAsked_chain (s : State) : (s.deviceAsked).chain = s.chain := rfl
@[simp] theorem State.deviceAsked_eng (s : State) : (s.deviceAsked).eng = s.eng := rfl
@[simp] theorem State.deviceAsked_cpBase (s : State) : (s.deviceAsked).cpBase = s.cpBase := rfl
@[simp] theorem State.deviceAsked_inputs (s : State) : (s.deviceAsked).inputs = s.inputs := rfl
@[simp] theorem State.deviceAsked_rdata (s : State) : (s.deviceAsked).rdata = s.rdata := rfl
@[simp] theorem State.deviceAsked_out (s : State) : (s.deviceAsked).out = s.out := rfl
@[simp] theorem State.deviceAsked_draws (s : State) : (s.deviceAsked).draws = { s.draws with devok := s.draws.devok + 1 } := rfl

end Sys2Proof.Machine
end

