-- ==== Sys2Proof/Laws/Commands.lean ====
section
/-! SUPPORT. How a command ends, and what each check answers: the lemmas a proof about a command cites instead of
unfolding its body. -/

namespace Sys2Proof.Machine

/-! ## Ends of a command -/

/-- A command's body runs step by step: from a whole that succeeds, each part did. -/
theorem bind_ok {ε α β : Type} {x : Except ε α} {f : α → Except ε β} {b : β} (h : (x >>= f) = .ok b) :
    ∃ a, x = .ok a ∧ f a = .ok b := by
  cases x with
  | error e => cases h
  | ok a => exact ⟨a, rfl, h⟩

theorem bind_error {ε α β : Type} {x : Except ε α} {f : α → Except ε β} {e : ε} (h : (x >>= f) = .error e) :
    x = .error e ∨ ∃ a, x = .ok a ∧ f a = .error e := by
  cases x with
  | error e' => cases h; exact .inl rfl
  | ok a => exact .inr ⟨a, rfl, h⟩

@[simp] theorem ok_bind {ε α β : Type} (a : α) (f : α → Except ε β) : ((.ok a : Except ε α) >>= f) = f a := rfl
@[simp] theorem error_bind {ε α β : Type} (e : ε) (f : α → Except ε β) : ((.error e : Except ε α) >>= f) = .error e := rfl
@[simp] theorem pure_ok {ε α : Type} (a : α) : (pure a : Except ε α) = .ok a := rfl

@[simp] theorem finish_ok (s : State) (r0 : Word) (t : State) (r : Res) : finish s r0 (.ok (t, r)) = .next (t.succeed r) := rfl
@[simp] theorem finish_error (s : State) (r0 : Word) (e : ErrCode) : finish s r0 (.error e) = .next (s.raise e r0) := rfl

/-- A command that ends with `finish` completed its body, or raised its code and changed nothing else. -/
theorem finish_next {s t : State} {r0 : Word} {x : Except ErrCode (State × Res)} (h : finish s r0 x = .next t) :
    (∃ u r, x = .ok (u, r) ∧ t = u.succeed r) ∨ ∃ e, x = .error e ∧ t = s.raise e r0 := by
  cases x with
  | error e => cases h; exact .inr ⟨e, rfl, rfl⟩
  | ok p => obtain ⟨u, r⟩ := p; cases h; exact .inl ⟨u, r, rfl, rfl⟩

/-- A command that ends with `finish` answers a next state. -/
theorem finish_completes (s : State) (r0 : Word) (x : Except ErrCode (State × Res)) : ∃ t, finish s r0 x = .next t := by
  cases x with
  | error e => exact ⟨_, rfl⟩
  | ok p => exact ⟨_, rfl⟩

/-! ## Checks -/

theorem argF_ok {w v : Word} : argF w = .ok v ↔ B32.isNaN w = false ∧ v = w := by
  unfold argF; cases B32.isNaN w <;> simp [eq_comm]

theorem argF_error {w : Word} {e : ErrCode} : argF w = .error e ↔ B32.isNaN w = true ∧ e = .badArg := by
  unfold argF; cases B32.isNaN w <;> simp [eq_comm]

theorem argCount_ok {w : Word} {n : Nat} : argCount w = .ok n ↔ w.toNat ≤ 8192 ∧ n = w.toNat := by
  have : Config.bufszMax = 8192 := rfl
  unfold argCount; split <;> simp [eq_comm] <;> omega

theorem argCount_error {w : Word} {e : ErrCode} : argCount w = .error e ↔ 8192 < w.toNat ∧ e = .badArg := by
  have : Config.bufszMax = 8192 := rfl
  unfold argCount; split <;> simp [eq_comm] <;> omega

theorem argFlag_ok {w : Word} {b : Bool} : argFlag w = .ok b ↔ w.toNat < 2 ∧ b = decide (w.toNat = 1) := by
  unfold argFlag
  split
  · simp; omega
  · have h : w.toNat = 0 ∨ w.toNat = 1 := by omega
    rcases h with h | h <;> simp [h, eq_comm]

theorem argFlag_error {w : Word} {e : ErrCode} : argFlag w = .error e ↔ 1 < w.toNat ∧ e = .badArg := by
  unfold argFlag; split <;> simp [eq_comm] <;> omega

theorem argNote_ok {w : Word} {n : Fin 128} : argNote w = .ok n ↔ w.toNat = n.val := by
  unfold argNote
  split
  · simp [Fin.ext_iff]
  · simp; omega

theorem argNote_error {w : Word} {e : ErrCode} : argNote w = .error e ↔ 127 < w.toNat ∧ e = .badArg := by
  unfold argNote; split <;> simp [eq_comm] <;> omega

theorem argIndex_ok {max : Nat} {w : Word} {n : Nat} : argIndex max w = .ok n ↔ w.toNat ≤ max ∧ n = w.toNat := by
  unfold argIndex; split <;> simp [eq_comm] <;> omega

theorem argIndex_error {max : Nat} {w : Word} {e : ErrCode} : argIndex max w = .error e ↔ max < w.toNat ∧ e = .badArg := by
  unfold argIndex; split <;> simp [eq_comm] <;> omega

theorem argWave_error {w : Word} {e : ErrCode} : argWave w = .error e ↔ 4 < w.toNat ∧ e = .badArg := by
  unfold argWave
  split <;> simp_all [eq_comm] <;> (intros; omega)

theorem argMode_error {w : Word} {e : ErrCode} : argMode w = .error e ↔ 2 < w.toNat ∧ e = .badArg := by
  unfold argMode
  split <;> simp_all [eq_comm] <;> (intros; omega)

theorem needInit_ok {s : State} : needInit s = .ok () ↔ s.eng.state ≠ .uninit := by
  unfold needInit; split <;> simp_all

theorem needInit_error {s : State} {e : ErrCode} : needInit s = .error e ↔ s.eng.state = .uninit ∧ e = .notInit := by
  unfold needInit; split <;> simp_all [eq_comm]

theorem needMixer_ok {s : State} {m : Mixer} : needMixer s = .ok m ↔ s.mixer = some m := by
  unfold needMixer; split <;> simp_all

theorem needMixer_error {s : State} {e : ErrCode} : needMixer s = .error e ↔ s.mixer = none ∧ e = .notInit := by
  unfold needMixer; split <;> simp_all [eq_comm]

theorem needFifo_ok {s : State} {f : Fifo} : needFifo s = .ok f ↔ s.fifo = some f := by
  unfold needFifo; split <;> simp_all

theorem needFifo_error {s : State} {e : ErrCode} : needFifo s = .error e ↔ s.fifo = none ∧ e = .notInit := by
  unfold needFifo; split <;> simp_all [eq_comm]

theorem needRing_ok {s : State} {r : Ring} : needRing s = .ok r ↔ s.ring = some r := by
  unfold needRing; split <;> simp_all

theorem needRing_error {s : State} {e : ErrCode} : needRing s = .error e ↔ s.ring = none ∧ e = .notInit := by
  unfold needRing; split <;> simp_all [eq_comm]

theorem needSlot_ok {α : Type} {p : List (Option α)} {k : Nat} : needSlot p = .ok k ↔ freeSlot p = some k := by
  unfold needSlot; split <;> simp_all

theorem needSlot_error {α : Type} {p : List (Option α)} {e : ErrCode} :
    needSlot p = .error e ↔ none ∉ p ∧ e = .poolFull := by
  unfold needSlot
  split
  · next h =>
    have : none ∉ p := fun hm => by simpa using freeSlot_none.1 h none hm
    simp [this, eq_comm]
  · next k h =>
    have : none ∈ p := List.mem_of_getElem? (freeSlot_some.1 h).1
    simp [this]

/-- A channel found is an entry of the map. -/
theorem findChannel_mem {l : List (Word × Channel)} {id : Word} {c : Channel} (h : findChannel l id = some c) :
    (id, c) ∈ l := by
  induction l with
  | nil => cases h
  | cons p t ih =>
    obtain ⟨k, d⟩ := p
    rw [findChannel] at h
    split at h
    · next hk => cases h; simp [hk]
    · exact List.mem_cons_of_mem _ (ih h)

/-- With distinct ids every entry is found under its id. -/
theorem findChannel_of_mem {l : List (Word × Channel)} {id : Word} {c : Channel}
    (hd : l.Pairwise (fun p q => p.1 ≠ q.1)) (h : (id, c) ∈ l) : findChannel l id = some c := by
  induction l with
  | nil => cases h
  | cons p t ih =>
    obtain ⟨k, d⟩ := p
    rw [List.pairwise_cons] at hd
    rw [findChannel]
    rcases List.mem_cons.1 h with h | h
    · cases h; simp
    · rw [if_neg (by simpa using hd.1 _ h), ih hd.2 h]

theorem findChannel_none {l : List (Word × Channel)} {id : Word} : findChannel l id = none ↔ ∀ c, (id, c) ∉ l := by
  induction l with
  | nil => simp [findChannel]
  | cons p t ih =>
    obtain ⟨k, d⟩ := p
    rw [findChannel]
    by_cases hk : k = id
    · subst hk
      simp only [if_true, reduceCtorEq, false_iff, not_forall, not_not]
      exact ⟨d, by simp⟩
    · rw [if_neg hk, ih]; simp [Ne.symm hk]

theorem needChannel_ok {m : Mixer} {id : Word} {c : Channel} : needChannel m id = .ok c ↔ findChannel m.ch id = some c := by
  unfold needChannel; split <;> simp_all

theorem needChannel_error {m : Mixer} {id : Word} {e : ErrCode} :
    needChannel m id = .error e ↔ (∀ c, (id, c) ∉ m.ch) ∧ e = .badHandle := by
  unfold needChannel
  split
  · next h => simp [findChannel_none.1 h, eq_comm]
  · next c h => simp only [reduceCtorEq, false_iff, not_and]; exact fun hn => absurd (findChannel_mem h) (hn c)

end Sys2Proof.Machine
end

