-- ==== Sys2Proof/Laws/Created.lean ====
section
/-! SUPPORT. A record at its creation values is sound at every rate of the engine's range (10_state.md R63-R69). -/

namespace Sys2Proof.Machine

theorem oscOk_new {sr : Word} (h : RateOk sr) : OscOk (newOsc sr) := ⟨h, by simp only [newOsc]⟩

theorem polyOk_new {sr : Word} (h : RateOk sr) : PolyOk (newPoly sr) := by
  refine ⟨h, rfl, fun i j n hi _ => ?_, fun v hv => ?_⟩
  · have := List.mem_of_getElem? hi
    simp [newPoly, newVoice] at this
  · rw [List.eq_of_mem_replicate hv]; simp only [newVoice, newPoly]

theorem envOk_new {sr : Word} (h : RateOk sr) : EnvOk (newEnv sr) := ⟨h, by simp only [newEnv, withRates]⟩

theorem epoolOk_new {sr : Word} (h : RateOk sr) : EPoolOk (newEpool sr) := by
  refine ⟨h, rfl, fun i j n hi _ => ?_, fun m hm => ?_⟩
  · have := List.mem_of_getElem? hi
    simp [newEpool] at this
  · rw [List.eq_of_mem_replicate hm]; exact ⟨envOk_new h, rfl⟩

theorem fltOk_new {sr : Word} (h : RateOk sr) : FltOk (newFlt sr) := ⟨h, by simp only [newFlt]⟩

/-- A delay is sound once its length and distance are known to fit (43_effects.md R402). -/
theorem dlyOk_new {sr : Word} (h : RateOk sr) (hl : dlyLen sr = sr.toNat)
    (hd : 1 ≤ (newDly sr).d ∧ (newDly sr).d ≤ dlyLen sr) : DlyOk (newDly sr) :=
  have : 1 ≤ dlyLen sr := hd.1.trans hd.2
  ⟨h, by simpa only [newDly] using hl, by simp only [newDly], hd.1, by simpa only [newDly] using hd.2,
    by simpa only [newDly] using delayBufOk_new this, by simpa only [newDly] using delayBufOk_new this⟩

end Sys2Proof.Machine
end

