-- ==== Sys2Proof/Laws/Float.lean ====
section
/-! SUPPORT. Binary32: the logarithm and the rounding of ratios, the order of values, clamping (00_scope.md R9, R10). -/

namespace Sys2Proof.B32

/-! ## Logarithm and rounding -/

/-- One halving step of the logarithm. -/
theorem ilogBy_step {b : Nat} {bs : List Nat}
    (h : ∀ q, 0 < q → q < 2 ^ b → 2 ^ ilogBy bs q ≤ q ∧ q < 2 ^ (ilogBy bs q + 1)) (q : Nat) (h0 : 0 < q)
    (hq : q < 2 ^ (b + b)) : 2 ^ ilogBy (b :: bs) q ≤ q ∧ q < 2 ^ (ilogBy (b :: bs) q + 1) := by
  have hb : 0 < 2 ^ b := Nat.two_pow_pos b
  rw [ilogBy]
  split
  · next hlt => exact h q h0 hlt
  · next hge =>
    have hd : q / 2 ^ b < 2 ^ b := by
      rw [Nat.div_lt_iff_lt_mul hb, ← Nat.pow_add]; exact hq
    obtain ⟨h1, h2⟩ := h (q / 2 ^ b) (Nat.div_pos (Nat.le_of_not_lt hge) hb) hd
    rw [Nat.add_assoc, Nat.pow_add, Nat.pow_add 2 b]
    exact ⟨(Nat.mul_le_mul_left _ h1).trans (Nat.mul_div_le q _), by
      rw [Nat.mul_comm, ← Nat.div_lt_iff_lt_mul hb]; exact h2⟩

set_option exponentiation.threshold 1100 in
/-- `ilog` is the base-2 logarithm of a positive number below 2^1024. -/
theorem ilog_spec {q : Nat} (h0 : 0 < q) (hq : q < 2 ^ 1024) : 2 ^ ilog q ≤ q ∧ q < 2 ^ (ilog q + 1) := by
  have s0 : ∀ q, 0 < q → q < 2 ^ 1 → 2 ^ ilogBy [] q ≤ q ∧ q < 2 ^ (ilogBy [] q + 1) := by
    intro q h1 h2; simp only [ilogBy]; omega
  have s1 := ilogBy_step s0
  have s2 := ilogBy_step (b := 2) s1
  have s4 := ilogBy_step (b := 4) s2
  have s8 := ilogBy_step (b := 8) s4
  have s16 := ilogBy_step (b := 16) s8
  have s32 := ilogBy_step (b := 32) s16
  have s64 := ilogBy_step (b := 64) s32
  have s128 := ilogBy_step (b := 128) s64
  have s256 := ilogBy_step (b := 256) s128
  exact ilogBy_step (b := 512) s256 q h0 hq

/-- The rounded integer is at most half a unit away, and even when exactly half a unit away. -/
theorem roundNat_near (n : Nat) {d : Nat} (hd : 0 < d) :
    2 * d * roundNat n d ≤ 2 * n + d ∧ 2 * n ≤ 2 * d * roundNat n d + d ∧
      (2 * d * roundNat n d = 2 * n + d ∨ 2 * n = 2 * d * roundNat n d + d → roundNat n d % 2 = 0) := by
  have hm := Nat.div_add_mod n d
  have hl := Nat.mod_lt n hd
  generalize hq : n / d = q at hm
  generalize hr : n % d = r at hm hl
  have e : 2 * d * q = 2 * n - 2 * r := by rw [Nat.mul_assoc]; omega
  have e1 : 2 * d * (q + 1) = 2 * n - 2 * r + 2 * d := by rw [Nat.mul_add, e, Nat.mul_one]
  have hle : 2 * r ≤ 2 * n := by omega
  unfold roundNat
  rw [hr, hq]
  split
  · exact ⟨by omega, by omega, fun h => by omega⟩
  · split
    · exact ⟨by omega, by omega, fun h => by omega⟩
    · rcases Nat.mod_two_eq_zero_or_one q with h2 | h2
      · rw [h2, Nat.add_zero]; exact ⟨by omega, by omega, fun _ => h2⟩
      · rw [h2]; exact ⟨by omega, by omega, fun _ => by omega⟩

/-! ## Order and clamping -/

theorem le_iff {a b : Word} : le a b = true ↔ isNaN a = false ∧ isNaN b = false ∧ key a ≤ key b := by
  simp [le, and_assoc]

theorem lt_iff {a b : Word} : lt a b = true ↔ isNaN a = false ∧ isNaN b = false ∧ key a < key b := by
  simp [lt, and_assoc]

/-- A clamped value that is no NaN lies between the bounds (R10). -/
theorem clamp_inRange {v lo hi : Word} (hv : isNaN v = false) (h : le lo hi = true) :
    Machine.InRange lo (clamp v lo hi) hi := by
  obtain ⟨hl, hh, hk⟩ := le_iff.1 h
  unfold clamp
  split
  · exact ⟨le_iff.2 ⟨hl, hl, le_refl _⟩, h⟩
  · next h1 =>
    split
    · exact ⟨h, le_iff.2 ⟨hh, hh, le_refl _⟩⟩
    · next h2 =>
      rw [lt_iff] at h1 h2
      push Not at h1 h2
      exact ⟨le_iff.2 ⟨hl, hv, h1 hv hl⟩, le_iff.2 ⟨hv, hh, h2 hh hv⟩⟩

/-! ## Signs -/

@[simp] theorem mag_lt (x : Word) : mag x < 2 ^ 31 := Nat.mod_lt _ (by decide)

theorem sign_eq_msb (x : Word) : sign x = x.msb := by
  rw [BitVec.msb_eq_decide]; rfl

/-- Negation flips the sign (R9). -/
theorem sign_neg (x : Word) : sign (neg x) = !sign x := by
  rw [sign_eq_msb, sign_eq_msb, neg, BitVec.msb_xor]
  have : (0x80000000#32 : Word).msb = true := by decide
  rw [this, Bool.xor_true]

/-- A magnitude has no sign (R9). -/
theorem sign_abs (x : Word) : sign (abs x) = false := by
  rw [sign_eq_msb, abs, BitVec.msb_and]
  have : (0x7FFFFFFF#32 : Word).msb = false := by decide
  rw [this, Bool.and_false]

end Sys2Proof.B32
end

