-- ==== Sys2Proof/Laws/Generate.lean ====
section
/-! SUPPORT. Generating and processing blocks: how many samples come out, and that nothing but the pools' records, the
mixer's channels and the NOISE counter moves. -/

namespace Sys2Proof.Machine

/-! ## Lengths -/

@[simp] theorem oscGen_length (n : Nat) (u : Osc) (k : Nat) : (oscGen n u k).1.length = n := by
  induction n generalizing u k with
  | zero => rfl
  | succ n ih => exact congrArg (· + 1) (ih _ _)

@[simp] theorem polyGen_length (n : Nat) (u : Poly) (k : Nat) : (polyGen n u k).1.length = n := by
  induction n generalizing u k with
  | zero => rfl
  | succ n ih => exact congrArg (· + 1) (ih _ _)

@[simp] theorem envGen_length (n : Nat) (e : Env) : (envGen n e).1.length = n := by
  induction n generalizing e with
  | zero => rfl
  | succ n ih => exact congrArg (· + 1) (ih _)

theorem envGen_snd (n : Nat) (e : Env) : (envGen n e).2 = envSteps n e := by
  induction n generalizing e with
  | zero => rfl
  | succ n ih => exact ih _

@[simp] theorem runFrames_length {α : Type} (step : α → Frame → Frame × α) (u : α) (fs : List Frame) :
    (runFrames step u fs).1.length = fs.length := by
  induction fs generalizing u with
  | nil => rfl
  | cons f fs ih => exact congrArg (· + 1) (ih _)

/-- What a step keeps of a record holds after a block of them. -/
theorem runFrames_keeps {α : Type} {P : α → Prop} {step : α → Frame → Frame × α}
    (h : ∀ u f, P u → P (step u f).2) (fs : List Frame) : ∀ u, P u → P (runFrames step u fs).2 := by
  induction fs with
  | nil => exact fun u hu => hu
  | cons f fs ih => exact fun u hu => ih _ (h u f hu)

@[simp] theorem dlyRun_length (u : Dly) (fs : List Frame) : (dlyRun u fs).1.length = fs.length := by
  unfold dlyRun; split <;> simp

@[simp] theorem fltRun_length (u : Flt) (fs : List Frame) : (fltRun u fs).1.length = fs.length := by
  unfold fltRun; split <;> simp

@[simp] theorem revRun_length (u : Rev) (fs : List Frame) : (revRun u fs).1.length = fs.length := by
  unfold revRun; split <;> simp

@[simp] theorem fxRun_length (s : State) (r : FxRef) (fs : List Frame) : (fxRun s r fs).1.length = fs.length := by
  unfold fxRun; split <;> split <;> simp

@[simp] theorem silence_length (n : Nat) : (silence n).length = n := by simp [silence]

@[simp] theorem srcGen_length (s : State) (r : SrcRef) (n : Nat) : (srcGen s r n).1.length = n := by
  unfold srcGen; split <;> split <;> simp

@[simp] theorem chGen_length (s : State) (c : Channel) (n : Nat) : (chGen s c n).1.length = n := by
  unfold chGen; split
  · simp
  · split <;> simp [spread]

@[simp] theorem addBlock_length (a b : List Frame) : (addBlock a b).length = min a.length b.length := by
  simp [addBlock]

theorem mixChannels_length (n : Nat) (ch : List (Word × Channel)) (acc : List Frame) (s : State) (h : acc.length = n) :
    (mixChannels n ch acc s).1.length = n := by
  induction ch generalizing acc s with
  | nil => exact h
  | cons p t ih =>
    obtain ⟨id, c⟩ := p
    exact ih (addBlock acc (chGen s c n).1) (chGen s c n).2.2 (by rw [addBlock_length, chGen_length, h, Nat.min_self])

@[simp] theorem mixGen_length (s : State) (m : Mixer) (n : Nat) : (mixGen s m n).1.length = n := by
  simp [mixGen, masterClip, mixChannels_length]

@[simp] theorem chainRun_length (rs : List FxRef) (fs : List Frame) (s : State) :
    (chainRun rs fs s).1.length = fs.length := by
  induction rs generalizing fs s with
  | nil => rfl
  | cons r rs ih => rw [chainRun, ih, fxRun_length]

/-! ## What moves -/

/-- `t` differs from `s` at most in the records of allocated slots of the pools (the envelope pools aside), in the mixer's
channels and in the NOISE counter. -/
structure SamplesMoved (s t : State) : Prop where
  cmd : t.cmd = s.cmd
  args : t.args = s.args
  err : t.err = s.err
  res : t.res = s.res
  swin : t.swin = s.swin
  epool : t.epool = s.epool
  fifo : t.fifo = s.fifo
  ring : t.ring = s.ring
  chain : t.chain = s.chain
  eng : t.eng = s.eng
  cpBase : t.cpBase = s.cpBase
  inputs : t.inputs = s.inputs
  rdata : t.rdata = s.rdata
  out : t.out = s.out
  devok : t.draws.devok = s.draws.devok
  cpuload : t.draws.cpuload = s.draws.cpuload
  mixer : t.mixer.isSome = s.mixer.isSome
  allocated : ∀ k i, allocated t k i = allocated s k i

theorem SamplesMoved.refl (s : State) : SamplesMoved s s :=
  ⟨rfl, rfl, rfl, rfl, rfl, rfl, rfl, rfl, rfl, rfl, rfl, rfl, rfl, rfl, rfl, rfl, rfl, fun _ _ => rfl⟩

theorem SamplesMoved.trans {s t u : State} (a : SamplesMoved s t) (b : SamplesMoved t u) : SamplesMoved s u :=
  ⟨b.cmd.trans a.cmd, b.args.trans a.args, b.err.trans a.err, b.res.trans a.res, b.swin.trans a.swin,
    b.epool.trans a.epool, b.fifo.trans a.fifo, b.ring.trans a.ring, b.chain.trans a.chain, b.eng.trans a.eng,
    b.cpBase.trans a.cpBase, b.inputs.trans a.inputs, b.rdata.trans a.rdata, b.out.trans a.out, b.devok.trans a.devok,
    b.cpuload.trans a.cpuload, b.mixer.trans a.mixer, fun k i => (b.allocated k i).trans (a.allocated k i)⟩

theorem isSome_poolSet {α : Type} {p : List (Option α)} {i : Nat} {u : α} (h : poolGet p i = some u) (v : α) (j : Nat) :
    (poolGet (poolSet p i v) j).isSome = (poolGet p j).isSome := by
  rw [poolGet_poolSet]
  split
  · next hj => rw [hj.1, h]; rfl
  · rfl

theorem samplesMoved_srcGen (s : State) (r : SrcRef) (n : Nat) : SamplesMoved s (srcGen s r n).2 := by
  unfold srcGen
  split <;> split
  · next i u h =>
    refine ⟨rfl, rfl, rfl, rfl, rfl, rfl, rfl, rfl, rfl, rfl, rfl, rfl, rfl, rfl, rfl, rfl, rfl, fun k j => ?_⟩
    cases k <;> first | rfl | exact isSome_poolSet h _ _
  · exact .refl s
  · next i u h =>
    refine ⟨rfl, rfl, rfl, rfl, rfl, rfl, rfl, rfl, rfl, rfl, rfl, rfl, rfl, rfl, rfl, rfl, rfl, fun k j => ?_⟩
    cases k <;> first | rfl | exact isSome_poolSet h _ _
  · exact .refl s
  · next i u h =>
    refine ⟨rfl, rfl, rfl, rfl, rfl, rfl, rfl, rfl, rfl, rfl, rfl, rfl, rfl, rfl, rfl, rfl, rfl, fun k j => ?_⟩
    cases k <;> first | rfl | exact isSome_poolSet h _ _
  · exact .refl s

theorem samplesMoved_fxRun (s : State) (r : FxRef) (fs : List Frame) : SamplesMoved s (fxRun s r fs).2 := by
  unfold fxRun
  split <;> split
  · next i u h =>
    refine ⟨rfl, rfl, rfl, rfl, rfl, rfl, rfl, rfl, rfl, rfl, rfl, rfl, rfl, rfl, rfl, rfl, rfl, fun k j => ?_⟩
    cases k <;> first | rfl | exact isSome_poolSet h _ _
  · exact .refl s
  · next i u h =>
    refine ⟨rfl, rfl, rfl, rfl, rfl, rfl, rfl, rfl, rfl, rfl, rfl, rfl, rfl, rfl, rfl, rfl, rfl, fun k j => ?_⟩
    cases k <;> first | rfl | exact isSome_poolSet h _ _
  · exact .refl s
  · next i u h =>
    refine ⟨rfl, rfl, rfl, rfl, rfl, rfl, rfl, rfl, rfl, rfl, rfl, rfl, rfl, rfl, rfl, rfl, rfl, fun k j => ?_⟩
    cases k <;> first | rfl | exact isSome_poolSet h _ _
  · exact .refl s

theorem samplesMoved_chGen (s : State) (c : Channel) (n : Nat) : SamplesMoved s (chGen s c n).2.2 := by
  unfold chGen
  split
  · exact .refl s
  · split
    · exact .refl s
    · exact samplesMoved_srcGen ..

theorem samplesMoved_mixChannels (n : Nat) (ch : List (Word × Channel)) (acc : List Frame) (s : State) :
    SamplesMoved s (mixChannels n ch acc s).2.2 := by
  induction ch generalizing acc s with
  | nil => exact .refl s
  | cons p t ih => exact (samplesMoved_chGen s p.2 n).trans (ih _ _)

theorem samplesMoved_mixGen {s : State} {m : Mixer} (h : s.mixer = some m) (n : Nat) :
    SamplesMoved s (mixGen s m n).2 := by
  have a := samplesMoved_mixChannels n m.ch (silence n) s
  exact ⟨a.cmd, a.args, a.err, a.res, a.swin, a.epool, a.fifo, a.ring, a.chain, a.eng, a.cpBase, a.inputs, a.rdata, a.out,
    a.devok, a.cpuload, by rw [h]; rfl, fun k i => by rw [← a.allocated k i]; cases k <;> rfl⟩

theorem samplesMoved_chainRun (rs : List FxRef) (fs : List Frame) (s : State) : SamplesMoved s (chainRun rs fs s).2 := by
  induction rs generalizing fs s with
  | nil => exact .refl s
  | cons r rs ih => exact (samplesMoved_fxRun s r fs).trans (ih _ _)

/-- Setting a common effect field keeps everything but that unit. -/
theorem samplesMoved_setFxMix (s : State) (r : FxRef) (f : FxMix → FxMix) : SamplesMoved s (setFxMix s r f) := by
  unfold setFxMix
  split <;> split
  · next i u h =>
    refine ⟨rfl, rfl, rfl, rfl, rfl, rfl, rfl, rfl, rfl, rfl, rfl, rfl, rfl, rfl, rfl, rfl, rfl, fun k j => ?_⟩
    cases k <;> first | rfl | exact isSome_poolSet h _ _
  · exact .refl s
  · next i u h =>
    refine ⟨rfl, rfl, rfl, rfl, rfl, rfl, rfl, rfl, rfl, rfl, rfl, rfl, rfl, rfl, rfl, rfl, rfl, fun k j => ?_⟩
    cases k <;> first | rfl | exact isSome_poolSet h _ _
  · exact .refl s
  · next i u h =>
    refine ⟨rfl, rfl, rfl, rfl, rfl, rfl, rfl, rfl, rfl, rfl, rfl, rfl, rfl, rfl, rfl, rfl, rfl, fun k j => ?_⟩
    cases k <;> first | rfl | exact isSome_poolSet h _ _
  · exact .refl s

/-- Everything a frame request can do to the state (46_engine.md R590): nothing for no frames; else the cpu_load draw and
either the error path or a block through the mixer and the chain and its end. -/
theorem frameRequest_cases (s : State) (n : Nat) :
    (n = 0 ∧ frameRequest s n = s) ∨
    (0 < n ∧ frameRequest s n = errorPath (drawCpuLoad s) n) ∨
    (0 < n ∧ s.eng.state ≠ .uninit ∧ n ≤ s.eng.bufsz.toNat ∧ ∃ m, s.mixer = some m ∧
      frameRequest s n =
        frameEnd (frameBlock (drawCpuLoad s) m n).2 (frameBlock (drawCpuLoad s) m n).1 n) := by
  unfold frameRequest
  split
  · next h => exact .inl ⟨h, rfl⟩
  · next h =>
    split
    · exact .inr (.inl ⟨Nat.pos_of_ne_zero h, rfl⟩)
    · next h2 =>
      rw [not_or] at h2
      split
      · exact .inr (.inl ⟨Nat.pos_of_ne_zero h, rfl⟩)
      · next m hm => exact .inr (.inr ⟨Nat.pos_of_ne_zero h, h2.1, Nat.le_of_not_lt h2.2, m, hm, rfl⟩)

/-- A block through the mixer and the chain moves samples only, and is n frames long. -/
theorem samplesMoved_frameBlock {s : State} {m : Mixer} (h : s.mixer = some m) (n : Nat) :
    SamplesMoved (drawCpuLoad s) (frameBlock (drawCpuLoad s) m n).2 :=
  (samplesMoved_mixGen (s := drawCpuLoad s) h n).trans (samplesMoved_chainRun _ _ _)

@[simp] theorem frameBlock_length (s : State) (m : Mixer) (n : Nat) : (frameBlock s m n).1.length = n := by
  simp [frameBlock]

end Sys2Proof.Machine
end

