-- ==== Sys2Proof/Laws/Inversion.lean ====
section
/-! SUPPORT. Everything each command can do when it answers a next state: it raised a code and changed nothing else, or its
checks passed and its one update was made. A proof over commands cites these and unfolds no body. -/

namespace Sys2Proof.Machine

theorem execOscCreate_cases {s t : State} (h : execOscCreate s = .next t) :
    (∃ e, t = s.raise e Config.nullResult) ∨ ∃ (k : Nat),
      s.eng.state ≠ .uninit ∧ freeSlot s.osc = some k ∧
      t = (s.setOsc k (newOsc s.eng.sr)).succeed (resOne (handleWord .osc k)) := by
  rcases finish_next h with ⟨u', r', hb, rfl⟩ | ⟨e, -, rfl⟩
  · obtain ⟨⟨⟩, h1, hb⟩ := bind_ok hb
    obtain ⟨k, h2, hb⟩ := bind_ok hb
    cases hb
    exact .inr ⟨k, needInit_ok.1 h1, needSlot_ok.1 h2, rfl⟩
  · exact .inl ⟨e, rfl⟩

theorem execPolyCreate_cases {s t : State} (h : execPolyCreate s = .next t) :
    (∃ e, t = s.raise e Config.nullResult) ∨ ∃ (k : Nat),
      s.eng.state ≠ .uninit ∧ freeSlot s.poly = some k ∧
      t = (s.setPoly k (newPoly s.eng.sr)).succeed (resOne (handleWord .poly k)) := by
  rcases finish_next h with ⟨u', r', hb, rfl⟩ | ⟨e, -, rfl⟩
  · obtain ⟨⟨⟩, h1, hb⟩ := bind_ok hb
    obtain ⟨k, h2, hb⟩ := bind_ok hb
    cases hb
    exact .inr ⟨k, needInit_ok.1 h1, needSlot_ok.1 h2, rfl⟩
  · exact .inl ⟨e, rfl⟩

theorem execEnvCreate_cases {s t : State} (h : execEnvCreate s = .next t) :
    (∃ e, t = s.raise e Config.nullResult) ∨ ∃ (k : Nat),
      s.eng.state ≠ .uninit ∧ freeSlot s.env = some k ∧
      t = (s.setEnv k (newEnv s.eng.sr)).succeed (resOne (handleWord .env k)) := by
  rcases finish_next h with ⟨u', r', hb, rfl⟩ | ⟨e, -, rfl⟩
  · obtain ⟨⟨⟩, h1, hb⟩ := bind_ok hb
    obtain ⟨k, h2, hb⟩ := bind_ok hb
    cases hb
    exact .inr ⟨k, needInit_ok.1 h1, needSlot_ok.1 h2, rfl⟩
  · exact .inl ⟨e, rfl⟩

theorem execEpoolCreate_cases {s t : State} (h : execEpoolCreate s = .next t) :
    (∃ e, t = s.raise e Config.nullResult) ∨ ∃ (k : Nat),
      s.eng.state ≠ .uninit ∧ freeSlot s.epool = some k ∧
      t = (s.setEpool k (newEpool s.eng.sr)).succeed (resOne (handleWord .epool k)) := by
  rcases finish_next h with ⟨u', r', hb, rfl⟩ | ⟨e, -, rfl⟩
  · obtain ⟨⟨⟩, h1, hb⟩ := bind_ok hb
    obtain ⟨k, h2, hb⟩ := bind_ok hb
    cases hb
    exact .inr ⟨k, needInit_ok.1 h1, needSlot_ok.1 h2, rfl⟩
  · exact .inl ⟨e, rfl⟩

theorem execDlyCreate_cases {s t : State} (h : execDlyCreate s = .next t) :
    (∃ e, t = s.raise e Config.nullResult) ∨ ∃ (k : Nat),
      s.eng.state ≠ .uninit ∧ freeSlot s.dly = some k ∧
      t = (s.setDly k (newDly s.eng.sr)).succeed (resOne (handleWord .dly k)) := by
  rcases finish_next h with ⟨u', r', hb, rfl⟩ | ⟨e, -, rfl⟩
  · obtain ⟨⟨⟩, h1, hb⟩ := bind_ok hb
    obtain ⟨k, h2, hb⟩ := bind_ok hb
    cases hb
    exact .inr ⟨k, needInit_ok.1 h1, needSlot_ok.1 h2, rfl⟩
  · exact .inl ⟨e, rfl⟩

theorem execFltCreate_cases {s t : State} (h : execFltCreate s = .next t) :
    (∃ e, t = s.raise e Config.nullResult) ∨ ∃ (k : Nat),
      s.eng.state ≠ .uninit ∧ freeSlot s.flt = some k ∧
      t = (s.setFlt k (newFlt s.eng.sr)).succeed (resOne (handleWord .flt k)) := by
  rcases finish_next h with ⟨u', r', hb, rfl⟩ | ⟨e, -, rfl⟩
  · obtain ⟨⟨⟩, h1, hb⟩ := bind_ok hb
    obtain ⟨k, h2, hb⟩ := bind_ok hb
    cases hb
    exact .inr ⟨k, needInit_ok.1 h1, needSlot_ok.1 h2, rfl⟩
  · exact .inl ⟨e, rfl⟩

theorem execRevCreate_cases {s t : State} (h : execRevCreate s = .next t) :
    (∃ e, t = s.raise e Config.nullResult) ∨ ∃ (k : Nat),
      s.eng.state ≠ .uninit ∧ freeSlot s.rev = some k ∧
      t = (s.setRev k (newRev s.eng.sr)).succeed (resOne (handleWord .rev k)) := by
  rcases finish_next h with ⟨u', r', hb, rfl⟩ | ⟨e, -, rfl⟩
  · obtain ⟨⟨⟩, h1, hb⟩ := bind_ok hb
    obtain ⟨k, h2, hb⟩ := bind_ok hb
    cases hb
    exact .inr ⟨k, needInit_ok.1 h1, needSlot_ok.1 h2, rfl⟩
  · exact .inl ⟨e, rfl⟩

theorem execOscSetFreq_cases {s t : State} (h : execOscSetFreq s = .next t) :
    (∃ e, t = s.raise e 0) ∨ ∃ (k : Nat) (u : Osc),
      HandleNames s s.args.a0 .osc k ∧ poolGet s.osc k = some u ∧ B32.isNaN s.args.a1 = false ∧
      t = (s.setOsc k { u with freq := B32.clamp s.args.a1 Config.fMin Config.fMax, inc := phaseInc (B32.clamp s.args.a1 Config.fMin Config.fMax) u.sr }).succeed resZero := by
  rcases finish_next h with ⟨u', r', hb, rfl⟩ | ⟨e, -, rfl⟩
  · obtain ⟨⟨k, u⟩, h1, hb⟩ := bind_ok hb
    obtain ⟨v, h2, hb⟩ := bind_ok hb
    obtain ⟨-, rfl⟩ := argF_ok.1 h2
    cases hb
    exact .inr ⟨k, u, (unitOf_ok h1).1, (unitOf_ok h1).2, (argF_ok.1 h2).1, rfl⟩
  · exact .inl ⟨e, rfl⟩

theorem execOscSetAmp_cases {s t : State} (h : execOscSetAmp s = .next t) :
    (∃ e, t = s.raise e 0) ∨ ∃ (k : Nat) (u : Osc),
      HandleNames s s.args.a0 .osc k ∧ poolGet s.osc k = some u ∧ B32.isNaN s.args.a1 = false ∧
      t = (s.setOsc k { u with amp := B32.clamp s.args.a1 B32.zero B32.one }).succeed resZero := by
  rcases finish_next h with ⟨u', r', hb, rfl⟩ | ⟨e, -, rfl⟩
  · obtain ⟨⟨k, u⟩, h1, hb⟩ := bind_ok hb
    obtain ⟨v, h2, hb⟩ := bind_ok hb
    obtain ⟨-, rfl⟩ := argF_ok.1 h2
    cases hb
    exact .inr ⟨k, u, (unitOf_ok h1).1, (unitOf_ok h1).2, (argF_ok.1 h2).1, rfl⟩
  · exact .inl ⟨e, rfl⟩

theorem execOscSetWave_cases {s t : State} (h : execOscSetWave s = .next t) :
    (∃ e, t = s.raise e 0) ∨ ∃ (k : Nat) (u : Osc) (w : Wave),
      HandleNames s s.args.a0 .osc k ∧ poolGet s.osc k = some u ∧ argWave s.args.a1 = .ok w ∧
      t = (s.setOsc k { u with wave := w }).succeed resZero := by
  rcases finish_next h with ⟨u', r', hb, rfl⟩ | ⟨e, -, rfl⟩
  · obtain ⟨⟨k, u⟩, h1, hb⟩ := bind_ok hb
    obtain ⟨w, h2, hb⟩ := bind_ok hb
    cases hb
    exact .inr ⟨k, u, w, (unitOf_ok h1).1, (unitOf_ok h1).2, h2, rfl⟩
  · exact .inl ⟨e, rfl⟩

theorem execPolyNoteOn_cases {s t : State} (h : execPolyNoteOn s = .next t) :
    (∃ e, t = s.raise e 0) ∨ ∃ (k : Nat) (u : Poly) (note : Fin 128),
      HandleNames s s.args.a0 .poly k ∧ poolGet s.poly k = some u ∧ s.args.a1.toNat = note.val ∧
      t = (s.setPoly k { u with voice := u.voice.modify (noteSlot note (u.voice.map (·.note))) (voiceOn u.sr note (argVel s.args.a2)) }).succeed (resOne (BitVec.ofNat 32 (noteSlot note (u.voice.map (·.note))))) := by
  rcases finish_next h with ⟨u', r', hb, rfl⟩ | ⟨e, -, rfl⟩
  · obtain ⟨⟨k, u⟩, h1, hb⟩ := bind_ok hb
    obtain ⟨note, h2, hb⟩ := bind_ok hb
    cases hb
    exact .inr ⟨k, u, note, (unitOf_ok h1).1, (unitOf_ok h1).2, argNote_ok.1 h2, rfl⟩
  · exact .inl ⟨e, rfl⟩

theorem execPolySetWave_cases {s t : State} (h : execPolySetWave s = .next t) :
    (∃ e, t = s.raise e 0) ∨ ∃ (k : Nat) (u : Poly) (w : Wave),
      HandleNames s s.args.a0 .poly k ∧ poolGet s.poly k = some u ∧ argWave s.args.a1 = .ok w ∧
      t = (s.setPoly k { u with wave := w }).succeed resZero := by
  rcases finish_next h with ⟨u', r', hb, rfl⟩ | ⟨e, -, rfl⟩
  · obtain ⟨⟨k, u⟩, h1, hb⟩ := bind_ok hb
    obtain ⟨w, h2, hb⟩ := bind_ok hb
    cases hb
    exact .inr ⟨k, u, w, (unitOf_ok h1).1, (unitOf_ok h1).2, h2, rfl⟩
  · exact .inl ⟨e, rfl⟩

theorem execEnvSetAttack_cases {s t : State} (h : execEnvSetAttack s = .next t) :
    (∃ e, t = s.raise e 0) ∨ ∃ (k : Nat) (u : Env),
      HandleNames s s.args.a0 .env k ∧ poolGet s.env k = some u ∧ B32.isNaN s.args.a1 = false ∧
      t = (s.setEnv k (envSetAttackT s.args.a1 u)).succeed resZero := by
  rcases finish_next h with ⟨u', r', hb, rfl⟩ | ⟨e, -, rfl⟩
  · obtain ⟨⟨k, u⟩, h1, hb⟩ := bind_ok hb
    obtain ⟨v, h2, hb⟩ := bind_ok hb
    obtain ⟨-, rfl⟩ := argF_ok.1 h2
    cases hb
    exact .inr ⟨k, u, (unitOf_ok h1).1, (unitOf_ok h1).2, (argF_ok.1 h2).1, rfl⟩
  · exact .inl ⟨e, rfl⟩

theorem execEnvSetDecay_cases {s t : State} (h : execEnvSetDecay s = .next t) :
    (∃ e, t = s.raise e 0) ∨ ∃ (k : Nat) (u : Env),
      HandleNames s s.args.a0 .env k ∧ poolGet s.env k = some u ∧ B32.isNaN s.args.a1 = false ∧
      t = (s.setEnv k (envSetDecayT s.args.a1 u)).succeed resZero := by
  rcases finish_next h with ⟨u', r', hb, rfl⟩ | ⟨e, -, rfl⟩
  · obtain ⟨⟨k, u⟩, h1, hb⟩ := bind_ok hb
    obtain ⟨v, h2, hb⟩ := bind_ok hb
    obtain ⟨-, rfl⟩ := argF_ok.1 h2
    cases hb
    exact .inr ⟨k, u, (unitOf_ok h1).1, (unitOf_ok h1).2, (argF_ok.1 h2).1, rfl⟩
  · exact .inl ⟨e, rfl⟩

theorem execEnvSetSustain_cases {s t : State} (h : execEnvSetSustain s = .next t) :
    (∃ e, t = s.raise e 0) ∨ ∃ (k : Nat) (u : Env),
      HandleNames s s.args.a0 .env k ∧ poolGet s.env k = some u ∧ B32.isNaN s.args.a1 = false ∧
      t = (s.setEnv k (envSetSustainL s.args.a1 u)).succeed resZero := by
  rcases finish_next h with ⟨u', r', hb, rfl⟩ | ⟨e, -, rfl⟩
  · obtain ⟨⟨k, u⟩, h1, hb⟩ := bind_ok hb
    obtain ⟨v, h2, hb⟩ := bind_ok hb
    obtain ⟨-, rfl⟩ := argF_ok.1 h2
    cases hb
    exact .inr ⟨k, u, (unitOf_ok h1).1, (unitOf_ok h1).2, (argF_ok.1 h2).1, rfl⟩
  · exact .inl ⟨e, rfl⟩

theorem execEnvSetRelease_cases {s t : State} (h : execEnvSetRelease s = .next t) :
    (∃ e, t = s.raise e 0) ∨ ∃ (k : Nat) (u : Env),
      HandleNames s s.args.a0 .env k ∧ poolGet s.env k = some u ∧ B32.isNaN s.args.a1 = false ∧
      t = (s.setEnv k (envSetReleaseT s.args.a1 u)).succeed resZero := by
  rcases finish_next h with ⟨u', r', hb, rfl⟩ | ⟨e, -, rfl⟩
  · obtain ⟨⟨k, u⟩, h1, hb⟩ := bind_ok hb
    obtain ⟨v, h2, hb⟩ := bind_ok hb
    obtain ⟨-, rfl⟩ := argF_ok.1 h2
    cases hb
    exact .inr ⟨k, u, (unitOf_ok h1).1, (unitOf_ok h1).2, (argF_ok.1 h2).1, rfl⟩
  · exact .inl ⟨e, rfl⟩

theorem execEnvNoteOn_cases {s t : State} (h : execEnvNoteOn s = .next t) :
    (∃ e, t = s.raise e 0) ∨ ∃ (k : Nat) (u : Env),
      HandleNames s s.args.a0 .env k ∧ poolGet s.env k = some u ∧
      t = (s.setEnv k (envOn u)).succeed resZero := by
  rcases finish_next h with ⟨u', r', hb, rfl⟩ | ⟨e, -, rfl⟩
  · obtain ⟨⟨k, u⟩, h1, hb⟩ := bind_ok hb
    cases hb
    exact .inr ⟨k, u, (unitOf_ok h1).1, (unitOf_ok h1).2, rfl⟩
  · exact .inl ⟨e, rfl⟩

theorem execEnvNoteOff_cases {s t : State} (h : execEnvNoteOff s = .next t) :
    (∃ e, t = s.raise e 0) ∨ ∃ (k : Nat) (u : Env),
      HandleNames s s.args.a0 .env k ∧ poolGet s.env k = some u ∧
      t = (s.setEnv k (envOff u)).succeed resZero := by
  rcases finish_next h with ⟨u', r', hb, rfl⟩ | ⟨e, -, rfl⟩
  · obtain ⟨⟨k, u⟩, h1, hb⟩ := bind_ok hb
    cases hb
    exact .inr ⟨k, u, (unitOf_ok h1).1, (unitOf_ok h1).2, rfl⟩
  · exact .inl ⟨e, rfl⟩

theorem execEnvGet_cases {s t : State} (h : execEnvGet s = .next t) :
    (∃ e, t = s.raise e 0) ∨ ∃ (k : Nat) (u : Env),
      HandleNames s s.args.a0 .env k ∧ poolGet s.env k = some u ∧
      t = s.succeed { resZero with r0 := u.level, r1 := envStateWord u.state } := by
  rcases finish_next h with ⟨u', r', hb, rfl⟩ | ⟨e, -, rfl⟩
  · obtain ⟨⟨k, u⟩, h1, hb⟩ := bind_ok hb
    cases hb
    exact .inr ⟨k, u, (unitOf_ok h1).1, (unitOf_ok h1).2, rfl⟩
  · exact .inl ⟨e, rfl⟩

theorem execEpoolNoteOn_cases {s t : State} (h : execEpoolNoteOn s = .next t) :
    (∃ e, t = s.raise e 0) ∨ ∃ (k : Nat) (u : EPool) (note : Fin 128),
      HandleNames s s.args.a0 .epool k ∧ poolGet s.epool k = some u ∧ s.args.a1.toNat = note.val ∧
      t = (s.setEpool k { u with member := u.member.modify (noteSlot note (u.member.map (·.note))) (fun m => { env := envOn m.env, note := some note }) }).succeed (resOne (BitVec.ofNat 32 (noteSlot note (u.member.map (·.note))))) := by
  rcases finish_next h with ⟨u', r', hb, rfl⟩ | ⟨e, -, rfl⟩
  · obtain ⟨⟨k, u⟩, h1, hb⟩ := bind_ok hb
    obtain ⟨note, h2, hb⟩ := bind_ok hb
    cases hb
    exact .inr ⟨k, u, note, (unitOf_ok h1).1, (unitOf_ok h1).2, argNote_ok.1 h2, rfl⟩
  · exact .inl ⟨e, rfl⟩

theorem execEpoolSet_cases {s t : State} (h : execEpoolSet s = .next t) :
    (∃ e, t = s.raise e 0) ∨ ∃ (k : Nat) (u : EPool),
      HandleNames s s.args.a0 .epool k ∧ poolGet s.epool k = some u ∧ s.args.a1.toNat ≤ 3 ∧
        B32.isNaN s.args.a2 = false ∧
      t = (s.setEpool k { u with member := u.member.map (fun m => { m with env := envSetBy s.args.a1.toNat s.args.a2 m.env }) }).succeed resZero := by
  rcases finish_next h with ⟨u', r', hb, rfl⟩ | ⟨e, -, rfl⟩
  · obtain ⟨⟨k, u⟩, h1, hb⟩ := bind_ok hb
    obtain ⟨sel, h2, hb⟩ := bind_ok hb
    obtain ⟨v, h3, hb⟩ := bind_ok hb
    obtain ⟨-, rfl⟩ := argIndex_ok.1 h2
    obtain ⟨-, rfl⟩ := argF_ok.1 h3
    cases hb
    exact .inr ⟨k, u, (unitOf_ok h1).1, (unitOf_ok h1).2, (argIndex_ok.1 h2).1, (argF_ok.1 h3).1, rfl⟩
  · exact .inl ⟨e, rfl⟩

theorem execEpoolAdvance_cases {s t : State} (h : execEpoolAdvance s = .next t) :
    (∃ e, t = s.raise e 0) ∨ ∃ (k : Nat) (u : EPool),
      HandleNames s s.args.a0 .epool k ∧ poolGet s.epool k = some u ∧ s.args.a1.toNat ≤ 8192 ∧
      t = (s.setEpool k { u with member := u.member.map (fun m => { m with env := envSteps s.args.a1.toNat m.env }) }).succeed resZero := by
  rcases finish_next h with ⟨u', r', hb, rfl⟩ | ⟨e, -, rfl⟩
  · obtain ⟨⟨k, u⟩, h1, hb⟩ := bind_ok hb
    obtain ⟨n, h2, hb⟩ := bind_ok hb
    obtain ⟨-, rfl⟩ := argCount_ok.1 h2
    cases hb
    exact .inr ⟨k, u, (unitOf_ok h1).1, (unitOf_ok h1).2, (argCount_ok.1 h2).1, rfl⟩
  · exact .inl ⟨e, rfl⟩

theorem execDlySetTime_cases {s t : State} (h : execDlySetTime s = .next t) :
    (∃ e, t = s.raise e 0) ∨ ∃ (k : Nat) (u : Dly),
      HandleNames s s.args.a0 .dly k ∧ poolGet s.dly k = some u ∧ B32.isNaN s.args.a1 = false ∧
      t = (s.setDly k { u with time := B32.clamp s.args.a1 B32.zero Config.dlyMaxS, d := dlyDist (B32.clamp s.args.a1 B32.zero Config.dlyMaxS) u.sr u.len }).succeed resZero := by
  rcases finish_next h with ⟨u', r', hb, rfl⟩ | ⟨e, -, rfl⟩
  · obtain ⟨⟨k, u⟩, h1, hb⟩ := bind_ok hb
    obtain ⟨v, h2, hb⟩ := bind_ok hb
    obtain ⟨-, rfl⟩ := argF_ok.1 h2
    cases hb
    exact .inr ⟨k, u, (unitOf_ok h1).1, (unitOf_ok h1).2, (argF_ok.1 h2).1, rfl⟩
  · exact .inl ⟨e, rfl⟩

theorem execDlySetFeedback_cases {s t : State} (h : execDlySetFeedback s = .next t) :
    (∃ e, t = s.raise e 0) ∨ ∃ (k : Nat) (u : Dly),
      HandleNames s s.args.a0 .dly k ∧ poolGet s.dly k = some u ∧ B32.isNaN s.args.a1 = false ∧
      t = (s.setDly k { u with feedback := B32.clamp s.args.a1 B32.zero Config.feedbackMax }).succeed resZero := by
  rcases finish_next h with ⟨u', r', hb, rfl⟩ | ⟨e, -, rfl⟩
  · obtain ⟨⟨k, u⟩, h1, hb⟩ := bind_ok hb
    obtain ⟨v, h2, hb⟩ := bind_ok hb
    obtain ⟨-, rfl⟩ := argF_ok.1 h2
    cases hb
    exact .inr ⟨k, u, (unitOf_ok h1).1, (unitOf_ok h1).2, (argF_ok.1 h2).1, rfl⟩
  · exact .inl ⟨e, rfl⟩

theorem execFltSetMode_cases {s t : State} (h : execFltSetMode s = .next t) :
    (∃ e, t = s.raise e 0) ∨ ∃ (k : Nat) (u : Flt) (w : FilterMode),
      HandleNames s s.args.a0 .flt k ∧ poolGet s.flt k = some u ∧ argMode s.args.a1 = .ok w ∧
      t = (s.setFlt k { u with mode := w, co := coeffs w u.cutoff u.q u.sr }).succeed resZero := by
  rcases finish_next h with ⟨u', r', hb, rfl⟩ | ⟨e, -, rfl⟩
  · obtain ⟨⟨k, u⟩, h1, hb⟩ := bind_ok hb
    obtain ⟨w, h2, hb⟩ := bind_ok hb
    cases hb
    exact .inr ⟨k, u, w, (unitOf_ok h1).1, (unitOf_ok h1).2, h2, rfl⟩
  · exact .inl ⟨e, rfl⟩

theorem execFltSetCutoff_cases {s t : State} (h : execFltSetCutoff s = .next t) :
    (∃ e, t = s.raise e 0) ∨ ∃ (k : Nat) (u : Flt),
      HandleNames s s.args.a0 .flt k ∧ poolGet s.flt k = some u ∧ B32.isNaN s.args.a1 = false ∧
      t = (s.setFlt k { u with cutoff := B32.clamp s.args.a1 Config.fMin Config.fMax, co := coeffs u.mode (B32.clamp s.args.a1 Config.fMin Config.fMax) u.q u.sr }).succeed resZero := by
  rcases finish_next h with ⟨u', r', hb, rfl⟩ | ⟨e, -, rfl⟩
  · obtain ⟨⟨k, u⟩, h1, hb⟩ := bind_ok hb
    obtain ⟨v, h2, hb⟩ := bind_ok hb
    obtain ⟨-, rfl⟩ := argF_ok.1 h2
    cases hb
    exact .inr ⟨k, u, (unitOf_ok h1).1, (unitOf_ok h1).2, (argF_ok.1 h2).1, rfl⟩
  · exact .inl ⟨e, rfl⟩

theorem execFltSetQ_cases {s t : State} (h : execFltSetQ s = .next t) :
    (∃ e, t = s.raise e 0) ∨ ∃ (k : Nat) (u : Flt),
      HandleNames s s.args.a0 .flt k ∧ poolGet s.flt k = some u ∧ B32.isNaN s.args.a1 = false ∧
      t = (s.setFlt k { u with q := B32.clamp s.args.a1 Config.qMin Config.qMax, co := coeffs u.mode u.cutoff (B32.clamp s.args.a1 Config.qMin Config.qMax) u.sr }).succeed resZero := by
  rcases finish_next h with ⟨u', r', hb, rfl⟩ | ⟨e, -, rfl⟩
  · obtain ⟨⟨k, u⟩, h1, hb⟩ := bind_ok hb
    obtain ⟨v, h2, hb⟩ := bind_ok hb
    obtain ⟨-, rfl⟩ := argF_ok.1 h2
    cases hb
    exact .inr ⟨k, u, (unitOf_ok h1).1, (unitOf_ok h1).2, (argF_ok.1 h2).1, rfl⟩
  · exact .inl ⟨e, rfl⟩

theorem execRevSetRoom_cases {s t : State} (h : execRevSetRoom s = .next t) :
    (∃ e, t = s.raise e 0) ∨ ∃ (k : Nat) (u : Rev),
      HandleNames s s.args.a0 .rev k ∧ poolGet s.rev k = some u ∧ B32.isNaN s.args.a1 = false ∧
      t = (s.setRev k { u with room := B32.clamp s.args.a1 B32.zero B32.one, d := revDists (B32.clamp s.args.a1 B32.zero B32.one) u.sr u.len }).succeed resZero := by
  rcases finish_next h with ⟨u', r', hb, rfl⟩ | ⟨e, -, rfl⟩
  · obtain ⟨⟨k, u⟩, h1, hb⟩ := bind_ok hb
    obtain ⟨v, h2, hb⟩ := bind_ok hb
    obtain ⟨-, rfl⟩ := argF_ok.1 h2
    cases hb
    exact .inr ⟨k, u, (unitOf_ok h1).1, (unitOf_ok h1).2, (argF_ok.1 h2).1, rfl⟩
  · exact .inl ⟨e, rfl⟩

theorem execRevSetDecay_cases {s t : State} (h : execRevSetDecay s = .next t) :
    (∃ e, t = s.raise e 0) ∨ ∃ (k : Nat) (u : Rev),
      HandleNames s s.args.a0 .rev k ∧ poolGet s.rev k = some u ∧ B32.isNaN s.args.a1 = false ∧
      t = (s.setRev k { u with decay := B32.clamp s.args.a1 B32.zero Config.feedbackMax }).succeed resZero := by
  rcases finish_next h with ⟨u', r', hb, rfl⟩ | ⟨e, -, rfl⟩
  · obtain ⟨⟨k, u⟩, h1, hb⟩ := bind_ok hb
    obtain ⟨v, h2, hb⟩ := bind_ok hb
    obtain ⟨-, rfl⟩ := argF_ok.1 h2
    cases hb
    exact .inr ⟨k, u, (unitOf_ok h1).1, (unitOf_ok h1).2, (argF_ok.1 h2).1, rfl⟩
  · exact .inl ⟨e, rfl⟩

theorem execFxSetDry_cases {s t : State} (h : execFxSetDry s = .next t) :
    (∃ e, t = s.raise e 0) ∨ ∃ (r : FxRef),
      s.args.a0 = fxHandle r ∧ r.live s ∧ B32.isNaN s.args.a1 = false ∧
      t = (setFxMix s r (fun m => { m with dry := B32.clamp s.args.a1 B32.zero B32.one })).succeed resZero := by
  rcases finish_next h with ⟨u', r', hb, rfl⟩ | ⟨e, -, rfl⟩
  · obtain ⟨r, h1, hb⟩ := bind_ok hb
    obtain ⟨v, h2, hb⟩ := bind_ok hb
    obtain ⟨-, rfl⟩ := argF_ok.1 h2
    cases hb
    exact .inr ⟨r, (fxOf_ok.1 h1).1, (fxOf_ok.1 h1).2, (argF_ok.1 h2).1, rfl⟩
  · exact .inl ⟨e, rfl⟩

theorem execFxSetWet_cases {s t : State} (h : execFxSetWet s = .next t) :
    (∃ e, t = s.raise e 0) ∨ ∃ (r : FxRef),
      s.args.a0 = fxHandle r ∧ r.live s ∧ B32.isNaN s.args.a1 = false ∧
      t = (setFxMix s r (fun m => { m with wet := B32.clamp s.args.a1 B32.zero B32.one })).succeed resZero := by
  rcases finish_next h with ⟨u', r', hb, rfl⟩ | ⟨e, -, rfl⟩
  · obtain ⟨r, h1, hb⟩ := bind_ok hb
    obtain ⟨v, h2, hb⟩ := bind_ok hb
    obtain ⟨-, rfl⟩ := argF_ok.1 h2
    cases hb
    exact .inr ⟨r, (fxOf_ok.1 h1).1, (fxOf_ok.1 h1).2, (argF_ok.1 h2).1, rfl⟩
  · exact .inl ⟨e, rfl⟩

theorem execFxSetBypass_cases {s t : State} (h : execFxSetBypass s = .next t) :
    (∃ e, t = s.raise e 0) ∨ ∃ (r : FxRef),
      s.args.a0 = fxHandle r ∧ r.live s ∧ s.args.a1.toNat < 2 ∧
      t = (setFxMix s r (fun m => { m with bypass := decide (s.args.a1.toNat = 1) })).succeed resZero := by
  rcases finish_next h with ⟨u', r', hb, rfl⟩ | ⟨e, -, rfl⟩
  · obtain ⟨r, h1, hb⟩ := bind_ok hb
    obtain ⟨b, h2, hb⟩ := bind_ok hb
    obtain ⟨-, rfl⟩ := argFlag_ok.1 h2
    cases hb
    exact .inr ⟨r, (fxOf_ok.1 h1).1, (fxOf_ok.1 h1).2, (argFlag_ok.1 h2).1, rfl⟩
  · exact .inl ⟨e, rfl⟩

theorem execFxProcess_cases {s t : State} (h : execFxProcess s = .next t) :
    (∃ e, t = s.raise e 0) ∨ ∃ (r : FxRef),
      s.args.a0 = fxHandle r ∧ r.live s ∧ s.args.a1.toNat ≤ 8192 ∧
      t = ((fxRun s r (s.swin.frames s.args.a1.toNat)).2.setSwin
        ((fxRun s r (s.swin.frames s.args.a1.toNat)).2.swin.setWords 0 (interleave (fxRun s r (s.swin.frames s.args.a1.toNat)).1))).succeed resZero := by
  rcases finish_next h with ⟨u', r', hb, rfl⟩ | ⟨e, -, rfl⟩
  · obtain ⟨r, h1, hb⟩ := bind_ok hb
    obtain ⟨n, h2, hb⟩ := bind_ok hb
    obtain ⟨-, rfl⟩ := argCount_ok.1 h2
    cases hb
    exact .inr ⟨r, (fxOf_ok.1 h1).1, (fxOf_ok.1 h1).2, (argCount_ok.1 h2).1, rfl⟩
  · exact .inl ⟨e, rfl⟩

theorem execMixRemoveChannel_cases {s t : State} (h : execMixRemoveChannel s = .next t) :
    (∃ e, t = s.raise e 0) ∨ ∃ (m : Mixer) (c : Channel),
      s.mixer = some m ∧ findChannel m.ch s.args.a0 = some c ∧
      t = (s.setMixer { m with ch := m.ch.filter (fun p => !decide (p.1 = s.args.a0)) }).succeed
        (resOne (boolWord true)) := by
  rcases finish_next h with ⟨u', r', hb, rfl⟩ | ⟨e, -, rfl⟩
  · obtain ⟨m, h1, hb⟩ := bind_ok hb
    obtain ⟨c, h2, hb⟩ := bind_ok hb
    cases hb
    exact .inr ⟨m, c, needMixer_ok.1 h1, needChannel_ok.1 h2, rfl⟩
  · exact .inl ⟨e, rfl⟩

theorem execChConnect_cases {s t : State} (h : execChConnect s = .next t) :
    (∃ e, t = s.raise e 0) ∨ ∃ (m : Mixer) (r : SrcRef) (c : Channel),
      s.mixer = some m ∧ s.args.a0 = srcHandle r ∧ r.live s ∧ findChannel m.ch s.args.a1 = some c ∧
      t = (s.setMixer (m.setChannel s.args.a1 { c with src := some r })).succeed (resOne (boolWord true)) := by
  rcases finish_next h with ⟨u', r', hb, rfl⟩ | ⟨e, -, rfl⟩
  · obtain ⟨m, h1, hb⟩ := bind_ok hb
    obtain ⟨r, h2, hb⟩ := bind_ok hb
    obtain ⟨c, h3, hb⟩ := bind_ok hb
    cases hb
    exact .inr ⟨m, r, c, needMixer_ok.1 h1, (srcOf_ok.1 h2).1, (srcOf_ok.1 h2).2, needChannel_ok.1 h3, rfl⟩
  · exact .inl ⟨e, rfl⟩

theorem execChSetMute_cases {s t : State} (h : execChSetMute s = .next t) :
    (∃ e, t = s.raise e 0) ∨ ∃ (m : Mixer) (c : Channel),
      s.mixer = some m ∧ findChannel m.ch s.args.a0 = some c ∧ s.args.a1.toNat < 2 ∧
      t = (s.setMixer (m.setChannel s.args.a0 { c with mute := decide (s.args.a1.toNat = 1) })).succeed resZero := by
  rcases finish_next h with ⟨u', r', hb, rfl⟩ | ⟨e, -, rfl⟩
  · obtain ⟨m, h1, hb⟩ := bind_ok hb
    obtain ⟨c, h2, hb⟩ := bind_ok hb
    obtain ⟨b, h3, hb⟩ := bind_ok hb
    obtain ⟨-, rfl⟩ := argFlag_ok.1 h3
    cases hb
    exact .inr ⟨m, c, needMixer_ok.1 h1, needChannel_ok.1 h2, (argFlag_ok.1 h3).1, rfl⟩
  · exact .inl ⟨e, rfl⟩

theorem execMixSetMaster_cases {s t : State} (h : execMixSetMaster s = .next t) :
    (∃ e, t = s.raise e 0) ∨ ∃ (m : Mixer),
      s.mixer = some m ∧ B32.isNaN s.args.a0 = false ∧
      t = (s.setMixer { m with master := B32.clamp s.args.a0 B32.zero B32.one }).succeed resZero := by
  rcases finish_next h with ⟨u', r', hb, rfl⟩ | ⟨e, -, rfl⟩
  · obtain ⟨m, h1, hb⟩ := bind_ok hb
    obtain ⟨v, h2, hb⟩ := bind_ok hb
    obtain ⟨-, rfl⟩ := argF_ok.1 h2
    cases hb
    exact .inr ⟨m, needMixer_ok.1 h1, (argF_ok.1 h2).1, rfl⟩
  · exact .inl ⟨e, rfl⟩

theorem execMixGenerate_cases {s t : State} (h : execMixGenerate s = .next t) :
    (∃ e, t = s.raise e 0) ∨ ∃ (m : Mixer),
      s.mixer = some m ∧ s.args.a0.toNat ≤ 8192 ∧
      t = ((mixGen s m s.args.a0.toNat).2.setSwin
        ((mixGen s m s.args.a0.toNat).2.swin.setWords 0 (interleave (mixGen s m s.args.a0.toNat).1))).succeed
        resZero := by
  rcases finish_next h with ⟨u', r', hb, rfl⟩ | ⟨e, -, rfl⟩
  · obtain ⟨m, h1, hb⟩ := bind_ok hb
    obtain ⟨n, h2, hb⟩ := bind_ok hb
    obtain ⟨-, rfl⟩ := argCount_ok.1 h2
    cases hb
    exact .inr ⟨m, needMixer_ok.1 h1, (argCount_ok.1 h2).1, rfl⟩
  · exact .inl ⟨e, rfl⟩

theorem execSrcGenerate_cases {s t : State} (h : execSrcGenerate s = .next t) :
    (∃ e, t = s.raise e 0) ∨ ∃ (r : SrcRef),
      s.args.a0 = srcHandle r ∧ r.live s ∧ s.args.a1.toNat ≤ 8192 ∧
      t = ((srcGen s r s.args.a1.toNat).2.setSwin
        ((srcGen s r s.args.a1.toNat).2.swin.setWords 0 (srcGen s r s.args.a1.toNat).1)).succeed resZero := by
  rcases finish_next h with ⟨u', r', hb, rfl⟩ | ⟨e, -, rfl⟩
  · obtain ⟨r, h1, hb⟩ := bind_ok hb
    obtain ⟨n, h2, hb⟩ := bind_ok hb
    obtain ⟨-, rfl⟩ := argCount_ok.1 h2
    cases hb
    exact .inr ⟨r, (srcOf_ok.1 h1).1, (srcOf_ok.1 h1).2, (argCount_ok.1 h2).1, rfl⟩
  · exact .inl ⟨e, rfl⟩

theorem execFifoWrite_cases {s t : State} (h : execFifoWrite s = .next t) :
    (∃ e, t = s.raise e 0) ∨ ∃ (f : Fifo),
      s.fifo = some f ∧ s.args.a0.toNat ≤ 8192 ∧
      t = (s.setFifo (fifoPush f (s.swin.frames s.args.a0.toNat))).succeed
        (resOne (BitVec.ofNat 32 (min s.args.a0.toNat (f.cap - f.q.length)))) := by
  rcases finish_next h with ⟨u', r', hb, rfl⟩ | ⟨e, -, rfl⟩
  · obtain ⟨f, h1, hb⟩ := bind_ok hb
    obtain ⟨n, h2, hb⟩ := bind_ok hb
    obtain ⟨-, rfl⟩ := argCount_ok.1 h2
    cases hb
    exact .inr ⟨f, needFifo_ok.1 h1, (argCount_ok.1 h2).1, rfl⟩
  · exact .inl ⟨e, rfl⟩

theorem execFifoRead_cases {s t : State} (h : execFifoRead s = .next t) :
    (∃ e, t = s.raise e 0) ∨ ∃ (f : Fifo),
      s.fifo = some f ∧ s.args.a0.toNat ≤ 8192 ∧
      t = ((s.setFifo (fifoPop f s.args.a0.toNat)).setSwin
        (s.swin.setWords 0 (interleave (fifoFront f s.args.a0.toNat)))).succeed
        (resOne (BitVec.ofNat 32 (min s.args.a0.toNat f.q.length))) := by
  rcases finish_next h with ⟨u', r', hb, rfl⟩ | ⟨e, -, rfl⟩
  · obtain ⟨f, h1, hb⟩ := bind_ok hb
    obtain ⟨n, h2, hb⟩ := bind_ok hb
    obtain ⟨-, rfl⟩ := argCount_ok.1 h2
    cases hb
    exact .inr ⟨f, needFifo_ok.1 h1, (argCount_ok.1 h2).1, rfl⟩
  · exact .inl ⟨e, rfl⟩

theorem execFifoPeek_cases {s t : State} (h : execFifoPeek s = .next t) :
    (∃ e, t = s.raise e 0) ∨ ∃ (f : Fifo),
      s.fifo = some f ∧ s.args.a0.toNat ≤ 8192 ∧
      t = (s.setSwin (s.swin.setWords 0 (interleave (fifoFront f s.args.a0.toNat)))).succeed
        (resOne (BitVec.ofNat 32 (min s.args.a0.toNat f.q.length))) := by
  rcases finish_next h with ⟨u', r', hb, rfl⟩ | ⟨e, -, rfl⟩
  · obtain ⟨f, h1, hb⟩ := bind_ok hb
    obtain ⟨n, h2, hb⟩ := bind_ok hb
    obtain ⟨-, rfl⟩ := argCount_ok.1 h2
    cases hb
    exact .inr ⟨f, needFifo_ok.1 h1, (argCount_ok.1 h2).1, rfl⟩
  · exact .inl ⟨e, rfl⟩

theorem execFifoMetrics_cases {s t : State} (h : execFifoMetrics s = .next t) :
    (∃ e, t = s.raise e 0) ∨ ∃ (f : Fifo),
      s.fifo = some f ∧
      t = s.succeed
        { resZero with r0 := BitVec.ofNat 32 f.q.length, r1 := BitVec.ofNat 32 f.cap, r2 := f.overflow, r3 := f.underflow, r4 := utilization f.q.length f.cap } := by
  rcases finish_next h with ⟨u', r', hb, rfl⟩ | ⟨e, -, rfl⟩
  · obtain ⟨f, h1, hb⟩ := bind_ok hb
    cases hb
    exact .inr ⟨f, needFifo_ok.1 h1, rfl⟩
  · exact .inl ⟨e, rfl⟩

theorem execRingWrite_cases {s t : State} (h : execRingWrite s = .next t) :
    (∃ e, t = s.raise e 0) ∨ ∃ (r : Ring),
      s.ring = some r ∧ s.args.a0.toNat ≤ 8192 ∧
      t = (s.setRing { ringPush r (s.swin.words (ringRoom r s.args.a0.toNat)) with overflow := if ringRoom r s.args.a0.toNat < s.args.a0.toNat then satInc r.overflow else r.overflow }).succeed (resOne (BitVec.ofNat 32 (ringRoom r s.args.a0.toNat))) := by
  rcases finish_next h with ⟨u', r', hb, rfl⟩ | ⟨e, -, rfl⟩
  · obtain ⟨r, h1, hb⟩ := bind_ok hb
    obtain ⟨n, h2, hb⟩ := bind_ok hb
    obtain ⟨-, rfl⟩ := argCount_ok.1 h2
    cases hb
    exact .inr ⟨r, needRing_ok.1 h1, (argCount_ok.1 h2).1, rfl⟩
  · exact .inl ⟨e, rfl⟩

theorem execRingRead_cases {s t : State} (h : execRingRead s = .next t) :
    (∃ e, t = s.raise e 0) ∨ ∃ (r : Ring),
      s.ring = some r ∧ s.args.a0.toNat ≤ 8192 ∧
      t = ((s.setRing { (ringPull (min s.args.a0.toNat (ringAvail r)) r).2 with underflow := if min s.args.a0.toNat (ringAvail r) < s.args.a0.toNat then satInc r.underflow else r.underflow }).setSwin (s.swin.setWords 0 ((ringPull (min s.args.a0.toNat (ringAvail r)) r).1 ++ List.replicate (s.args.a0.toNat - (min s.args.a0.toNat (ringAvail r))) B32.zero))).succeed (resOne (BitVec.ofNat 32 (min s.args.a0.toNat (ringAvail r)))) := by
  rcases finish_next h with ⟨u', r', hb, rfl⟩ | ⟨e, -, rfl⟩
  · obtain ⟨r, h1, hb⟩ := bind_ok hb
    obtain ⟨n, h2, hb⟩ := bind_ok hb
    obtain ⟨-, rfl⟩ := argCount_ok.1 h2
    cases hb
    exact .inr ⟨r, needRing_ok.1 h1, (argCount_ok.1 h2).1, rfl⟩
  · exact .inl ⟨e, rfl⟩

theorem execRingMetrics_cases {s t : State} (h : execRingMetrics s = .next t) :
    (∃ e, t = s.raise e 0) ∨ ∃ (r : Ring),
      s.ring = some r ∧
      t = s.succeed
        { resZero with r0 := BitVec.ofNat 32 (ringAvail r), r1 := BitVec.ofNat 32 r.slots, r2 := r.overflow, r3 := r.underflow, r4 := utilization (ringAvail r) r.slots } := by
  rcases finish_next h with ⟨u', r', hb, rfl⟩ | ⟨e, -, rfl⟩
  · obtain ⟨r, h1, hb⟩ := bind_ok hb
    cases hb
    exact .inr ⟨r, needRing_ok.1 h1, rfl⟩
  · exact .inl ⟨e, rfl⟩

theorem execPolyNoteOff_cases {s t : State} (h : execPolyNoteOff s = .next t) :
    (∃ e, t = s.raise e 0) ∨ ∃ (k : Nat) (u : Poly) (note : Fin 128),
      HandleNames s s.args.a0 .poly k ∧ poolGet s.poly k = some u ∧ s.args.a1.toNat = note.val ∧
      ((∃ j, noteIndex (some note) (u.voice.map (·.note)) = some j ∧
        t = (s.setPoly k { u with voice := u.voice.modify j (fun v => { v with note := none }) }).succeed
          (resOne (boolWord true))) ∨
      (noteIndex (some note) (u.voice.map (·.note)) = none ∧ t = s.succeed (resOne (boolWord false)))) := by
  rcases finish_next h with ⟨u', r', hb, rfl⟩ | ⟨e, -, rfl⟩
  · obtain ⟨⟨k, u⟩, h1, hb⟩ := bind_ok hb
    obtain ⟨note, h2, hb⟩ := bind_ok hb
    refine .inr ⟨k, u, note, (unitOf_ok h1).1, (unitOf_ok h1).2, argNote_ok.1 h2, ?_⟩
    split at hb
    · next j hj => cases hb; exact .inl ⟨j, hj, rfl⟩
    · next hj => cases hb; exact .inr ⟨hj, rfl⟩
  · exact .inl ⟨e, rfl⟩

theorem execEpoolNoteOff_cases {s t : State} (h : execEpoolNoteOff s = .next t) :
    (∃ e, t = s.raise e 0) ∨ ∃ (k : Nat) (u : EPool) (note : Fin 128),
      HandleNames s s.args.a0 .epool k ∧ poolGet s.epool k = some u ∧ s.args.a1.toNat = note.val ∧
      ((∃ j, noteIndex (some note) (u.member.map (·.note)) = some j ∧
        t = (s.setEpool k { u with member := u.member.modify j (fun m => { env := envOff m.env, note := none }) }).succeed
          (resOne (boolWord true))) ∨
      (noteIndex (some note) (u.member.map (·.note)) = none ∧ t = s.succeed (resOne (boolWord false)))) := by
  rcases finish_next h with ⟨u', r', hb, rfl⟩ | ⟨e, -, rfl⟩
  · obtain ⟨⟨k, u⟩, h1, hb⟩ := bind_ok hb
    obtain ⟨note, h2, hb⟩ := bind_ok hb
    refine .inr ⟨k, u, note, (unitOf_ok h1).1, (unitOf_ok h1).2, argNote_ok.1 h2, ?_⟩
    split at hb
    · next j hj => cases hb; exact .inl ⟨j, hj, rfl⟩
    · next hj => cases hb; exact .inr ⟨hj, rfl⟩
  · exact .inl ⟨e, rfl⟩

theorem execEpoolGet_cases {s t : State} (h : execEpoolGet s = .next t) :
    (∃ e, t = s.raise e 0) ∨ ∃ (k : Nat) (u : EPool) (m : Member),
      HandleNames s s.args.a0 .epool k ∧ poolGet s.epool k = some u ∧ s.args.a1.toNat ≤ 7 ∧
      u.member[s.args.a1.toNat]? = some m ∧
      t = s.succeed { resZero with r0 := m.env.level, r1 := envStateWord m.env.state, r2 := noteWord m.note } := by
  rcases finish_next h with ⟨u', r', hb, rfl⟩ | ⟨e, -, rfl⟩
  · obtain ⟨⟨k, u⟩, h1, hb⟩ := bind_ok hb
    obtain ⟨j, h2, hb⟩ := bind_ok hb
    obtain ⟨hj, rfl⟩ := argIndex_ok.1 h2
    split at hb
    · next m hm => cases hb; exact .inr ⟨k, u, m, (unitOf_ok h1).1, (unitOf_ok h1).2, hj, hm, rfl⟩
    · cases hb
  · exact .inl ⟨e, rfl⟩

theorem execMixAddChannel_cases {s t : State} (h : execMixAddChannel s = .next t) :
    (∃ e, t = s.raise e Config.nullResult) ∨ ∃ m : Mixer,
      s.mixer = some m ∧ m.ch.length ≠ 8 ∧ m.nextId ≠ 0xFFFFFFFF#32 ∧
      t = (s.setMixer { m with nextId := m.nextId + 1#32, ch := m.ch ++ [(m.nextId, newChannel)] }).succeed
        (resOne m.nextId) := by
  rcases finish_next h with ⟨u', r', hb, rfl⟩ | ⟨e, -, rfl⟩
  · obtain ⟨m, h1, hb⟩ := bind_ok hb
    split at hb
    · cases hb
    · next hn =>
      cases hb
      rw [not_or] at hn
      exact .inr ⟨m, needMixer_ok.1 h1, hn.1, hn.2, rfl⟩
  · exact .inl ⟨e, rfl⟩

theorem execChSetVolume_cases {s t : State} (h : execChSetVolume s = .next t) :
    (∃ e, t = s.raise e 0) ∨ ∃ (m : Mixer) (c : Channel),
      s.mixer = some m ∧ findChannel m.ch s.args.a0 = some c ∧ B32.isNaN s.args.a1 = false ∧ s.args.a3.toNat < 2 ∧
      ¬ (s.args.a3.toNat = 1 ∧ B32.isNaN s.args.a2 = true) ∧
      t = (s.setMixer (m.setChannel s.args.a0 { c with
        vol := rampSet c.vol (B32.clamp s.args.a1 B32.zero Config.volMax) s.args.a2 (decide (s.args.a3.toNat = 1))
          s.eng.sr })).succeed resZero := by
  rcases finish_next h with ⟨u', r', hb, rfl⟩ | ⟨e, -, rfl⟩
  · obtain ⟨m, h1, hb⟩ := bind_ok hb
    obtain ⟨c, h2, hb⟩ := bind_ok hb
    obtain ⟨v, h3, hb⟩ := bind_ok hb
    obtain ⟨g, h4, hb⟩ := bind_ok hb
    obtain ⟨hv, rfl⟩ := argF_ok.1 h3
    obtain ⟨hg, rfl⟩ := argFlag_ok.1 h4
    split at hb
    · cases hb
    · next hn =>
      cases hb
      exact .inr ⟨m, c, needMixer_ok.1 h1, needChannel_ok.1 h2, hv, hg, by simpa using hn, rfl⟩
  · exact .inl ⟨e, rfl⟩

theorem execChSetPan_cases {s t : State} (h : execChSetPan s = .next t) :
    (∃ e, t = s.raise e 0) ∨ ∃ (m : Mixer) (c : Channel),
      s.mixer = some m ∧ findChannel m.ch s.args.a0 = some c ∧ B32.isNaN s.args.a1 = false ∧ s.args.a3.toNat < 2 ∧
      ¬ (s.args.a3.toNat = 1 ∧ B32.isNaN s.args.a2 = true) ∧
      t = (s.setMixer (m.setChannel s.args.a0 { c with
        pan := rampSet c.pan (B32.clamp s.args.a1 Config.panMin Config.panMax) s.args.a2 (decide (s.args.a3.toNat = 1))
          s.eng.sr })).succeed resZero := by
  rcases finish_next h with ⟨u', r', hb, rfl⟩ | ⟨e, -, rfl⟩
  · obtain ⟨m, h1, hb⟩ := bind_ok hb
    obtain ⟨c, h2, hb⟩ := bind_ok hb
    obtain ⟨v, h3, hb⟩ := bind_ok hb
    obtain ⟨g, h4, hb⟩ := bind_ok hb
    obtain ⟨hv, rfl⟩ := argF_ok.1 h3
    obtain ⟨hg, rfl⟩ := argFlag_ok.1 h4
    split at hb
    · cases hb
    · next hn =>
      cases hb
      exact .inr ⟨m, c, needMixer_ok.1 h1, needChannel_ok.1 h2, hv, hg, by simpa using hn, rfl⟩
  · exact .inl ⟨e, rfl⟩

theorem execEngAddProc_cases {s t : State} (h : execEngAddProc s = .next t) :
    (∃ e, t = s.raise e 0) ∨ ∃ r : FxRef, s.args.a0 = fxHandle r ∧ r.live s ∧ r ∉ s.chain ∧ s.chain.length ≠ 8 ∧
      t = (s.setChain (s.chain ++ [r])).succeed (resOne (boolWord true)) := by
  rcases finish_next h with ⟨u', r', hb, rfl⟩ | ⟨e, -, rfl⟩
  · obtain ⟨r, h1, hb⟩ := bind_ok hb
    split at hb
    · cases hb
    · next hr =>
      split at hb
      · cases hb
      · next hl => cases hb; exact .inr ⟨r, (fxOf_ok.1 h1).1, (fxOf_ok.1 h1).2, hr, hl, rfl⟩
  · exact .inl ⟨e, rfl⟩

theorem execEngRemoveProc_cases {s t : State} (h : execEngRemoveProc s = .next t) :
    (∃ e, t = s.raise e 0) ∨ ∃ r : FxRef, s.args.a0 = fxHandle r ∧ r.live s ∧
      ((r ∈ s.chain ∧
        t = (s.setChain (s.chain.filter (fun q => !decide (q = r)))).succeed (resOne (boolWord true))) ∨
      (r ∉ s.chain ∧ t = s.succeed (resOne (boolWord false)))) := by
  rcases finish_next h with ⟨u', r', hb, rfl⟩ | ⟨e, -, rfl⟩
  · obtain ⟨r, h1, hb⟩ := bind_ok hb
    refine .inr ⟨r, (fxOf_ok.1 h1).1, (fxOf_ok.1 h1).2, ?_⟩
    split at hb
    · next hr => cases hb; exact .inl ⟨hr, rfl⟩
    · next hr => cases hb; exact .inr ⟨hr, rfl⟩
  · exact .inl ⟨e, rfl⟩

theorem execEngInit_cases {s t : State} (h : execEngInit s = .next t) :
    (initValid s.args.a0 s.args.a1 s.args.a2 = false ∧ t = s.raise .configError 0) ∨
    (initValid s.args.a0 s.args.a1 s.args.a2 = true ∧
      t = (((((stopIfRunning s).setMixer newMixer).setFifo (newFifo s.args.a2)).setRing (newRing s.args.a2)).setEng
        (initEngine s.eng s.args.a0 s.args.a1 s.args.a2)).succeed (resOne (boolWord true))) := by
  unfold execEngInit at h
  split at h
  · next hv => cases h; exact .inr ⟨hv, rfl⟩
  · next hv => cases h; exact .inl ⟨by simpa using hv, rfl⟩

theorem execEngStart_cases {s t : State} (h : execEngStart s = .next t) :
    (s.eng.state = .uninit ∧ t = s.raise .notInit 0) ∨
    (s.eng.state = .running ∧ t = s.succeed (resOne (boolWord true))) ∨
    (s.eng.state = .stopped ∧ deviceAnswer s = true ∧
      t = (s.deviceAsked.setEng { s.eng with state := .running }).succeed (resOne (boolWord true))) ∨
    (s.eng.state = .stopped ∧ deviceAnswer s = false ∧ t = s.deviceAsked.raise .deviceError 0) := by
  unfold execEngStart at h
  split at h
  · next he => cases h; exact .inl ⟨he, rfl⟩
  · next he => cases h; exact .inr (.inl ⟨he, rfl⟩)
  · next he =>
    split at h
    · next hd => cases h; exact .inr (.inr (.inl ⟨he, hd, rfl⟩))
    · next hd => cases h; exact .inr (.inr (.inr ⟨he, by simpa using hd, rfl⟩))

theorem execEngStop_cases {s t : State} (h : execEngStop s = .next t) :
    (s.eng.state ≠ .running ∧ t = s.succeed (resOne (boolWord true))) ∨
    (s.eng.state = .running ∧ deviceAnswer s = true ∧
      t = (s.deviceAsked.setEng { s.eng with state := .stopped }).succeed (resOne (boolWord true))) ∨
    (s.eng.state = .running ∧ deviceAnswer s = false ∧
      t = (s.deviceAsked.setEng { s.eng with state := .stopped }).raise .deviceError 0) := by
  unfold execEngStop at h
  split at h
  · next he =>
    split at h
    · next hd => cases h; exact .inr (.inl ⟨he, hd, rfl⟩)
    · next hd => cases h; exact .inr (.inr ⟨he, by simpa using hd, rfl⟩)
  · next he => cases h; exact .inl ⟨he, rfl⟩

theorem execEngGetMetrics_cases {s t : State} (h : execEngGetMetrics s = .next t) :
    t = s.succeed
      { resZero with r0 := s.eng.cpuload, r1 := s.eng.underruns, r2 := s.eng.latency, r3 := s.eng.peak } := by
  cases h; rfl

theorem execNop_cases {s t : State} (h : execNop s = .next t) : t = s.succeed resZero := by cases h; rfl

end Sys2Proof.Machine
end

