-- ==== Sys2Proof/Laws/PerInstr.lean ====
section
/-! SUPPORT. Statements about every instruction as syntax, one lemma per constructor. -/

/-- The instruction is well formed, its word has zeros above the opcode byte (30_encoding.md R200) and its opcode in it
(R202), and the word decodes to the instruction, by itself and as the first four bytes of a stream (R205). -/
def Sys2Proof.Laws.Encoding.Statement (i : Sys2Proof.Instr) : Prop :=
  i.wf = true ∧ (Sys2Proof.encode i).toNat = i.opcode ∧ i.opcode < 2 ^ 8 ∧ Sys2Proof.decode (Sys2Proof.encode i) = .ok i ∧
    Sys2Proof.decodeTableWord 32 (Sys2Proof.encode i).toNat = some i

namespace Sys2Proof.Laws.Encoding

theorem nop : Statement .nop := by refine ⟨?_, ?_, ?_, ?_, ?_⟩ <;> decide
theorem oscCreate : Statement .oscCreate := by refine ⟨?_, ?_, ?_, ?_, ?_⟩ <;> decide
theorem oscSetFreq : Statement .oscSetFreq := by refine ⟨?_, ?_, ?_, ?_, ?_⟩ <;> decide
theorem oscSetAmp : Statement .oscSetAmp := by refine ⟨?_, ?_, ?_, ?_, ?_⟩ <;> decide
theorem oscSetWave : Statement .oscSetWave := by refine ⟨?_, ?_, ?_, ?_, ?_⟩ <;> decide
theorem polyCreate : Statement .polyCreate := by refine ⟨?_, ?_, ?_, ?_, ?_⟩ <;> decide
theorem polyNoteOn : Statement .polyNoteOn := by refine ⟨?_, ?_, ?_, ?_, ?_⟩ <;> decide
theorem polyNoteOff : Statement .polyNoteOff := by refine ⟨?_, ?_, ?_, ?_, ?_⟩ <;> decide
theorem polySetWave : Statement .polySetWave := by refine ⟨?_, ?_, ?_, ?_, ?_⟩ <;> decide
theorem envCreate : Statement .envCreate := by refine ⟨?_, ?_, ?_, ?_, ?_⟩ <;> decide
theorem envSetAttack : Statement .envSetAttack := by refine ⟨?_, ?_, ?_, ?_, ?_⟩ <;> decide
theorem envSetDecay : Statement .envSetDecay := by refine ⟨?_, ?_, ?_, ?_, ?_⟩ <;> decide
theorem envSetSustain : Statement .envSetSustain := by refine ⟨?_, ?_, ?_, ?_, ?_⟩ <;> decide
theorem envSetRelease : Statement .envSetRelease := by refine ⟨?_, ?_, ?_, ?_, ?_⟩ <;> decide
theorem envNoteOn : Statement .envNoteOn := by refine ⟨?_, ?_, ?_, ?_, ?_⟩ <;> decide
theorem envNoteOff : Statement .envNoteOff := by refine ⟨?_, ?_, ?_, ?_, ?_⟩ <;> decide
theorem envGet : Statement .envGet := by refine ⟨?_, ?_, ?_, ?_, ?_⟩ <;> decide
theorem epoolCreate : Statement .epoolCreate := by refine ⟨?_, ?_, ?_, ?_, ?_⟩ <;> decide
theorem epoolNoteOn : Statement .epoolNoteOn := by refine ⟨?_, ?_, ?_, ?_, ?_⟩ <;> decide
theorem epoolNoteOff : Statement .epoolNoteOff := by refine ⟨?_, ?_, ?_, ?_, ?_⟩ <;> decide
theorem epoolSet : Statement .epoolSet := by refine ⟨?_, ?_, ?_, ?_, ?_⟩ <;> decide
theorem epoolAdvance : Statement .epoolAdvance := by refine ⟨?_, ?_, ?_, ?_, ?_⟩ <;> decide
theorem epoolGet : Statement .epoolGet := by refine ⟨?_, ?_, ?_, ?_, ?_⟩ <;> decide
theorem dlyCreate : Statement .dlyCreate := by refine ⟨?_, ?_, ?_, ?_, ?_⟩ <;> decide
theorem dlySetTime : Statement .dlySetTime := by refine ⟨?_, ?_, ?_, ?_, ?_⟩ <;> decide
theorem dlySetFeedback : Statement .dlySetFeedback := by refine ⟨?_, ?_, ?_, ?_, ?_⟩ <;> decide
theorem fltCreate : Statement .fltCreate := by refine ⟨?_, ?_, ?_, ?_, ?_⟩ <;> decide
theorem fltSetMode : Statement .fltSetMode := by refine ⟨?_, ?_, ?_, ?_, ?_⟩ <;> decide
theorem fltSetCutoff : Statement .fltSetCutoff := by refine ⟨?_, ?_, ?_, ?_, ?_⟩ <;> decide
theorem fltSetQ : Statement .fltSetQ := by refine ⟨?_, ?_, ?_, ?_, ?_⟩ <;> decide
theorem revCreate : Statement .revCreate := by refine ⟨?_, ?_, ?_, ?_, ?_⟩ <;> decide
theorem revSetRoom : Statement .revSetRoom := by refine ⟨?_, ?_, ?_, ?_, ?_⟩ <;> decide
theorem revSetDecay : Statement .revSetDecay := by refine ⟨?_, ?_, ?_, ?_, ?_⟩ <;> decide
theorem fxSetDry : Statement .fxSetDry := by refine ⟨?_, ?_, ?_, ?_, ?_⟩ <;> decide
theorem fxSetWet : Statement .fxSetWet := by refine ⟨?_, ?_, ?_, ?_, ?_⟩ <;> decide
theorem fxSetBypass : Statement .fxSetBypass := by refine ⟨?_, ?_, ?_, ?_, ?_⟩ <;> decide
theorem fxProcess : Statement .fxProcess := by refine ⟨?_, ?_, ?_, ?_, ?_⟩ <;> decide
theorem mixAddChannel : Statement .mixAddChannel := by refine ⟨?_, ?_, ?_, ?_, ?_⟩ <;> decide
theorem mixRemoveChannel : Statement .mixRemoveChannel := by refine ⟨?_, ?_, ?_, ?_, ?_⟩ <;> decide
theorem chConnect : Statement .chConnect := by refine ⟨?_, ?_, ?_, ?_, ?_⟩ <;> decide
theorem chSetVolume : Statement .chSetVolume := by refine ⟨?_, ?_, ?_, ?_, ?_⟩ <;> decide
theorem chSetPan : Statement .chSetPan := by refine ⟨?_, ?_, ?_, ?_, ?_⟩ <;> decide
theorem chSetMute : Statement .chSetMute := by refine ⟨?_, ?_, ?_, ?_, ?_⟩ <;> decide
theorem mixSetMaster : Statement .mixSetMaster := by refine ⟨?_, ?_, ?_, ?_, ?_⟩ <;> decide
theorem mixGenerate : Statement .mixGenerate := by refine ⟨?_, ?_, ?_, ?_, ?_⟩ <;> decide
theorem srcGenerate : Statement .srcGenerate := by refine ⟨?_, ?_, ?_, ?_, ?_⟩ <;> decide
theorem fifoWrite : Statement .fifoWrite := by refine ⟨?_, ?_, ?_, ?_, ?_⟩ <;> decide
theorem fifoRead : Statement .fifoRead := by refine ⟨?_, ?_, ?_, ?_, ?_⟩ <;> decide
theorem fifoPeek : Statement .fifoPeek := by refine ⟨?_, ?_, ?_, ?_, ?_⟩ <;> decide
theorem fifoMetrics : Statement .fifoMetrics := by refine ⟨?_, ?_, ?_, ?_, ?_⟩ <;> decide
theorem ringWrite : Statement .ringWrite := by refine ⟨?_, ?_, ?_, ?_, ?_⟩ <;> decide
theorem ringRead : Statement .ringRead := by refine ⟨?_, ?_, ?_, ?_, ?_⟩ <;> decide
theorem ringMetrics : Statement .ringMetrics := by refine ⟨?_, ?_, ?_, ?_, ?_⟩ <;> decide
theorem engInit : Statement .engInit := by refine ⟨?_, ?_, ?_, ?_, ?_⟩ <;> decide
theorem engStart : Statement .engStart := by refine ⟨?_, ?_, ?_, ?_, ?_⟩ <;> decide
theorem engStop : Statement .engStop := by refine ⟨?_, ?_, ?_, ?_, ?_⟩ <;> decide
theorem engGetMetrics : Statement .engGetMetrics := by refine ⟨?_, ?_, ?_, ?_, ?_⟩ <;> decide
theorem engAddProc : Statement .engAddProc := by refine ⟨?_, ?_, ?_, ?_, ?_⟩ <;> decide
theorem engRemoveProc : Statement .engRemoveProc := by refine ⟨?_, ?_, ?_, ?_, ?_⟩ <;> decide

end Sys2Proof.Laws.Encoding
end

