-- ==== Sys2Proof/Tests/Slice0.lean ====
section
/-! SUPPORT. Our own tests: well-formedness, decoding of words written out from 30_encoding.md R200-R203, the spec's constants
and worked examples (each test names its rule or its vector of 95_test_vectors.md), and, for every obligation with
hypotheses, states and operands that meet them. -/

namespace Sys2Proof.Tests

open Machine Claim

-- One after the other: many kernel evaluations at once each hold a thread, and their stacks together exceed the limit.
set_option Elab.async false

/-! ## Well-formedness -/

theorem test_wf_every_instruction_fits_four_operands : ∀ i : Instr, i.wf = true := by intro i; cases i <;> decide

theorem test_wf_good :
    Stmt.check (.command .oscSetFreq [.unit .osc 0, .decimal 4400 1]) = none ∧ Stmt.check (.wswin 16383 (.hex 0#32)) = none ∧
      Stmt.check (.rswin 0) = none ∧ Stmt.check (.rreg .mPeak) = none ∧ Stmt.check (.frame 300) = none := by decide

theorem test_wf_operand_count : Stmt.check (.command .oscSetFreq [.unit .osc 0]) = some .operandCount := by decide

theorem test_wf_operand_width :
    Stmt.check (.command .mixGenerate [.int (2 ^ 32)]) = some .operandWidth ∧
      Stmt.check (.command .envGet [.unit .env (2 ^ 24)]) = some .operandWidth := by decide

theorem test_wf_swin_index :
    Stmt.check (.wswin 16384 (.int 0)) = some .swinIndex ∧ Stmt.check (.rswin 16384) = some .swinIndex := by decide

/-! ## Decoding: words written out from 30_encoding.md R200, R202 -/

theorem test_decode_nop_bits : decode 0b00000000000000000000000000000000#32 = .ok .nop := by decide

/-- The oscillator group: 0001 0 xxx and 0001 1 xxx. -/
theorem test_decode_oscillator :
    decode 0b00000000000000000000000000010000#32 = .ok .oscCreate ∧
    decode 0b00000000000000000000000000010001#32 = .ok .oscSetFreq ∧
    decode 0b00000000000000000000000000010010#32 = .ok .oscSetAmp ∧
    decode 0b00000000000000000000000000010011#32 = .ok .oscSetWave ∧
    decode 0b00000000000000000000000000011000#32 = .ok .polyCreate ∧
    decode 0b00000000000000000000000000011001#32 = .ok .polyNoteOn ∧
    decode 0b00000000000000000000000000011010#32 = .ok .polyNoteOff ∧
    decode 0b00000000000000000000000000011011#32 = .ok .polySetWave := by decide

theorem test_decode_envelope :
    decode 0b00000000000000000000000000100000#32 = .ok .envCreate ∧
    decode 0b00000000000000000000000000100001#32 = .ok .envSetAttack ∧
    decode 0b00000000000000000000000000100010#32 = .ok .envSetDecay ∧
    decode 0b00000000000000000000000000100011#32 = .ok .envSetSustain ∧
    decode 0b00000000000000000000000000100100#32 = .ok .envSetRelease ∧
    decode 0b00000000000000000000000000100101#32 = .ok .envNoteOn ∧
    decode 0b00000000000000000000000000100110#32 = .ok .envNoteOff ∧
    decode 0b00000000000000000000000000100111#32 = .ok .envGet ∧
    decode 0b00000000000000000000000000101000#32 = .ok .epoolCreate ∧
    decode 0b00000000000000000000000000101001#32 = .ok .epoolNoteOn ∧
    decode 0b00000000000000000000000000101010#32 = .ok .epoolNoteOff ∧
    decode 0b00000000000000000000000000101011#32 = .ok .epoolSet ∧
    decode 0b00000000000000000000000000101100#32 = .ok .epoolAdvance ∧
    decode 0b00000000000000000000000000101101#32 = .ok .epoolGet := by decide

theorem test_decode_effects :
    decode 0b00000000000000000000000000110000#32 = .ok .dlyCreate ∧
    decode 0b00000000000000000000000000110001#32 = .ok .dlySetTime ∧
    decode 0b00000000000000000000000000110010#32 = .ok .dlySetFeedback ∧
    decode 0b00000000000000000000000000110011#32 = .ok .fltCreate ∧
    decode 0b00000000000000000000000000110100#32 = .ok .fltSetMode ∧
    decode 0b00000000000000000000000000110101#32 = .ok .fltSetCutoff ∧
    decode 0b00000000000000000000000000110110#32 = .ok .fltSetQ ∧
    decode 0b00000000000000000000000000110111#32 = .ok .revCreate ∧
    decode 0b00000000000000000000000000111000#32 = .ok .revSetRoom ∧
    decode 0b00000000000000000000000000111001#32 = .ok .revSetDecay ∧
    decode 0b00000000000000000000000000111010#32 = .ok .fxSetDry ∧
    decode 0b00000000000000000000000000111011#32 = .ok .fxSetWet ∧
    decode 0b00000000000000000000000000111100#32 = .ok .fxSetBypass ∧
    decode 0b00000000000000000000000000111101#32 = .ok .fxProcess := by decide

theorem test_decode_mixer :
    decode 0b00000000000000000000000001000000#32 = .ok .mixAddChannel ∧
    decode 0b00000000000000000000000001000001#32 = .ok .mixRemoveChannel ∧
    decode 0b00000000000000000000000001000010#32 = .ok .chConnect ∧
    decode 0b00000000000000000000000001000011#32 = .ok .chSetVolume ∧
    decode 0b00000000000000000000000001000100#32 = .ok .chSetPan ∧
    decode 0b00000000000000000000000001000101#32 = .ok .chSetMute ∧
    decode 0b00000000000000000000000001000110#32 = .ok .mixSetMaster ∧
    decode 0b00000000000000000000000001000111#32 = .ok .mixGenerate ∧
    decode 0b00000000000000000000000001001000#32 = .ok .srcGenerate := by decide

theorem test_decode_buffers :
    decode 0b00000000000000000000000001010000#32 = .ok .fifoWrite ∧
    decode 0b00000000000000000000000001010001#32 = .ok .fifoRead ∧
    decode 0b00000000000000000000000001010010#32 = .ok .fifoPeek ∧
    decode 0b00000000000000000000000001010011#32 = .ok .fifoMetrics ∧
    decode 0b00000000000000000000000001010100#32 = .ok .ringWrite ∧
    decode 0b00000000000000000000000001010101#32 = .ok .ringRead ∧
    decode 0b00000000000000000000000001010110#32 = .ok .ringMetrics := by decide

theorem test_decode_engine :
    decode 0b00000000000000000000000001100000#32 = .ok .engInit ∧
    decode 0b00000000000000000000000001100001#32 = .ok .engStart ∧
    decode 0b00000000000000000000000001100010#32 = .ok .engStop ∧
    decode 0b00000000000000000000000001100011#32 = .ok .engGetMetrics ∧
    decode 0b00000000000000000000000001100100#32 = .ok .engAddProc ∧
    decode 0b00000000000000000000000001100101#32 = .ok .engRemoveProc := by decide

/-- R203: the ends of every reserved range, and a bit above the opcode byte (V-ENC-2, V-ENC-3, V-ENC-4, V-ENC-6). -/
theorem test_decode_reserved :
    (∀ op ∈ [0x01, 0x0F, 0x14, 0x17, 0x1C, 0x1F, 0x2E, 0x2F, 0x3E, 0x3F, 0x49, 0x4F, 0x57, 0x5F, 0x66, 0xFF],
      decode (BitVec.ofNat 32 op) = .error .reservedOpcode) ∧
    decode 0x00000110#32 = .error .reservedBits ∧ decode 0x80000000#32 = .error .reservedBits ∧
    decodeBytes [0x10#8, 0x00#8, 0x00#8] = .error .tooShort := by decide

/-! ## The assembly (30_encoding.md R206, R207) -/

/-- P1 line 6: `OSC_SET_FREQ osc#0, 30000.0`, with the port at 0. -/
theorem test_assemble_osc_set_freq :
    assemble 0 (.command .oscSetFreq [.unit .osc 0, .decimal 300000 1]) =
      [.busWrite 0x04 4 0x01000000#32, .busWrite 0x08 4 0x46EA6000#32, .busWrite 0x00 4 0x00000011#32] := by decide +kernel

/-- P5 line 12: `CH_SET_VOLUME_NOW ch#1, 0.92`; P4 line 4: `WSWIN 1, 0.2`; P3 line 11: `RREG M_UNDERRUNS`. -/
theorem test_assemble_pseudo_and_window :
    assemble 0 (expand (.chSetVolumeNow (.chan 1) (.decimal 92 2))) =
      [.busWrite 0x04 4 0x00000001#32, .busWrite 0x08 4 0x3F6B851F#32, .busWrite 0x0C 4 0x00000000#32,
        .busWrite 0x10 4 0x00000001#32, .busWrite 0x00 4 0x00000043#32] ∧
    assemble 0 (.wswin 1 (.decimal 2 1)) = [.busWrite 0x10004 4 0x3E4CCCCD#32] ∧
    assemble 0 (.rreg .mUnderruns) = [.busRead 0x30 4] := by decide +kernel

/-! ## Constants and arithmetic -/

/-- 00_scope.md R5: each literal is the binary32 value nearest its decimal. -/
theorem test_config_literals :
    Config.fMin = B32.ofRatio 20 1 ∧ Config.fMax = B32.ofRatio 20000 1 ∧ Config.midiRefFreq = B32.ofRatio 440 1 ∧
    Config.notesPerOctave = B32.ofRatio 12 1 ∧ Config.velocityScale = B32.ofRatio 127 1 ∧
    Config.envTMin = B32.ofRatio 1 1000 ∧ Config.envTMax = B32.ofRatio 5 1 ∧ Config.envEpsilon = B32.ofRatio 1 10000 ∧
    Config.qMin = B32.ofRatio 1 10 ∧ Config.qMax = B32.ofRatio 10 1 ∧ Config.dlyMaxS = B32.ofRatio 1 1 ∧
    Config.feedbackMax = B32.ofRatio 95 100 ∧ Config.revBaseE1 = B32.ofRatio 30 1000 ∧
    Config.revBaseE2 = B32.ofRatio 45 1000 ∧ Config.revBaseE3 = B32.ofRatio 60 1000 ∧
    Config.revBaseT = B32.ofRatio 100 1000 ∧ Config.revEarlyW = B32.ofRatio 3 10 ∧ Config.volMax = B32.ofRatio 2 1 ∧
    Config.panMin = B32.ofRatio (-1) 1 ∧ Config.panMax = B32.ofRatio 1 1 ∧ Config.scThresh = B32.ofRatio 95 100 ∧
    Config.scRange = B32.ofRatio 5 100 ∧ Config.defaultRampMs = B32.ofRatio 10 1 ∧
    Config.rampMsMax = B32.ofRatio 10000 1 := by decide +kernel

/-- 00_scope.md R5 UNIT_DEFAULTS. -/
theorem test_config_unit_defaults :
    Config.defFreq = B32.ofRatio 440 1 ∧ Config.defAttack = B32.ofRatio 1 10 ∧ Config.defDecay = B32.ofRatio 1 10 ∧
    Config.defSustain = B32.ofRatio 7 10 ∧ Config.defRelease = B32.ofRatio 3 10 ∧ Config.defDlyTime = B32.ofRatio 1 10 ∧
    Config.defFeedback = B32.ofRatio 3 10 ∧ Config.defCutoff = B32.ofRatio 1000 1 ∧
    Config.defRoom = B32.ofRatio 5 10 ∧ Config.defRevDecay = B32.ofRatio 5 10 ∧ Config.defDlyWet = B32.ofRatio 5 10 ∧
    Config.defRevWet = B32.ofRatio 3 10 := by decide +kernel

/-- arctan(1/x) in 2^-560 by Gregory's series: `p` is 2^560/x^(2j+1). -/
def arctanInv (x : Nat) : Nat → Nat → Nat → Int
  | 0, _, _ => 0
  | k + 1, j, p => (p / (2 * j + 1) : Nat) - arctanInv x k (j + 1) (p / (x * x))

/-- Machin: π = 16 arctan(1/5) - 4 arctan(1/239); 2π to 512 fraction bits. -/
theorem test_two_pi :
    (2 * (16 * arctanInv 5 130 0 (2 ^ 560 / 5) - 4 * arctanInv 239 40 0 (2 ^ 560 / 239))) / 2 ^ 48 =
      (Elem.twoPi512 : Int) := by decide +kernel

/-- The terms 1/(k 2^k) of ln 2 in 2^-320. -/
def ln2Terms : Nat → Nat → Nat
  | 0, _ => 0
  | n + 1, k => 2 ^ 320 / (k * 2 ^ k) + ln2Terms n (k + 1)

theorem test_ln2 : ln2Terms 320 1 / 2 ^ 64 = Elem.ln2Fix := by decide +kernel

/-- 41_oscillator.md R300, R301 and V-OSC-1, V-OSC-15. -/
theorem test_oscillator_vectors :
    Elem.sineEntry 512 = 0x3F3504F3#32 ∧ Elem.sineEntry 1 = 0x3AC90FD5#32 ∧
    phaseInc 0x43DC0000#32 48000 = 0x3D6BE9A5#32 ∧ phaseInc 0x43DC0000#32 44100 = 0x3D80634A#32 ∧
    phaseInc (B32.ofNat 1000) 8000 = 0x3F490FDB#32 ∧ tableRead .sawtooth 0x40C90FDA#32 = 0xBF7FE002#32 := by decide +kernel

/-- V-POLY-1. -/
theorem test_midi_vectors :
    midiFreq 0 = 0x4102D012#32 ∧ midiFreq 21 = 0x41DC0000#32 ∧ midiFreq 60 = 0x4382D012#32 ∧
    midiFreq 69 = 0x43DC0000#32 ∧ midiFreq 127 = 0x4643FF6C#32 := by decide +kernel

/-- The soft-clip table of V-MIX. -/
theorem test_softclip_vectors :
    softClip 0x3F733333#32 = 0x3F733333#32 ∧ softClip (B32.ofRatio 96 100) = 0x3F77CED9#32 ∧
    softClip (B32.ofRatio (-97) 100) = 0xBF7B645B#32 ∧ softClip 0x3F7FFDF6#32 = 0x3F800000#32 ∧
    softClip 0x7F800000#32 = 0x3F800000#32 ∧ softClip 0xC0400000#32 = 0xBF800000#32 := by decide +kernel

/-- V-FLT's coefficients at sr 44100, and V-FLT-6 at sr 8000. -/
theorem test_filter_vectors :
    coeffs .lowpass 0x447A0000#32 0x3F3504F3#32 44100 =
      ⟨0x3B96DD3B#32, 0x3C16DD3B#32, 0x3B96DD3B#32, 0xBFE648CB#32, 0x3F51487F#32⟩ ∧
    coeffs .bandpass 0x447A0000#32 0x3F3504F3#32 44100 =
      ⟨0x3DBADE07#32, 0x00000000#32, 0xBDBADE07#32, 0xBFE648CB#32, 0x3F51487F#32⟩ ∧
    (coeffs .lowpass 0x459C4000#32 0x3F3504F3#32 8000).a2 = 0x40400002#32 := by decide +kernel

/-- V-REV-1 and V-REV-2. -/
theorem test_reverb_geometry :
    revLens 44100 = ⟨3969, 5954, 7938, 13230⟩ ∧ revDists 0x3F000000#32 44100 (revLens 44100) = ⟨2646, 3969, 5292, 8820⟩ ∧
    revDists 0x00000000#32 44100 (revLens 44100) = ⟨1323, 1985, 2646, 4410⟩ := by decide +kernel

/-- 45_buffers.md R531's example (V-DLY-8): D = 8 after writes 1, 2, 3. -/
theorem test_read_delayed :
    let b := [1#32, 2#32, 3#32].foldl writeSample (newDelayBuf 8)
    readDelayed b 1 = 3#32 ∧ readDelayed b 3 = 1#32 ∧ readDelayed b 4 = 0#32 ∧ readDelayed b 0 = 3#32 := by decide +kernel

/-- V-MIX-2 and V-MIX-4, at sr 8000. -/
theorem test_ramp_vectors :
    rampSet ⟨0x3F800000#32, 0x3F800000#32, 0, 0⟩ 0x3F000000#32 0x3F800000#32 true 8000 =
      ⟨0x3F800000#32, 0x3F000000#32, 8, 0xBD800000#32⟩ ∧
    rampAdv ⟨0x3F800000#32, 0x3F000000#32, 8, 0xBD800000#32⟩ 4 = ⟨0x3F400000#32, 0x3F000000#32, 4, 0xBD800000#32⟩ ∧
    rampSet ⟨0, 0, 0, 0⟩ 0x3F800000#32 (B32.ofRatio 5 100) true 8000 = ⟨0x3F800000#32, 0x3F800000#32, 0, 0⟩ := by
  decide +kernel

/-- 46_engine.md R592: the peak is the largest magnitude. -/
theorem test_block_peak : blockPeak [(0x3E000000#32, 0xBEFFFFFF#32), (0x00000000#32, 0x3E800000#32)] = 0x3EFFFFFF#32 := by
  decide +kernel

/-! ## States for the tests -/

/-- The state a successful ENG_INIT leaves from reset (46_engine.md R580), its latency given. -/
def inited (sr bs lat : Word) : State :=
  { State.reset with
    eng := ⟨.stopped, sr, 2, bs, 0, 0, lat, 0⟩
    mixer := some ⟨0, 0x3F800000#32, []⟩
    fifo := some ⟨4 * bs.toNat, [], 0, 0⟩
    ring := some ⟨4 * bs.toNat, [], 0, 0, 0, 0⟩ }

/-- A fresh unit of every kind in slot 0 of its pool. -/
def withUnits (s : State) : State :=
  { s with
    osc := some (newOsc s.eng.sr) :: List.replicate 15 none
    poly := some (newPoly s.eng.sr) :: List.replicate 3 none
    env := some (newEnv s.eng.sr) :: List.replicate 15 none
    epool := some (newEpool s.eng.sr) :: List.replicate 3 none
    dly := some (newDly s.eng.sr) :: List.replicate 3 none
    flt := some (newFlt s.eng.sr) :: List.replicate 3 none
    rev := some (newRev s.eng.sr) :: List.replicate 1 none }

/-- The engine at 44100, 256 (V-ENG-1) and at 8000, 16 (V-ENG-2), a unit of each kind created. -/
def at44 : State := withUnits (inited 44100 256 0x40B9C277#32)
def at8 : State := withUnits (inited 8000 16 0x40000000#32)

def withArgs (s : State) (a0 a1 a2 a3 : Word) : State := { s with args := ⟨a0, a1, a2, a3⟩ }

/-- The state a command leaves, if it answers one. -/
def after (i : Instr) (s : State) : Option State :=
  match exec i s with
  | .next t => some t
  | _ => none

/-- What a command leaves under a reading of the state. -/
def shows {α : Type} (i : Instr) (s : State) (f : State → α) : Option α := (after i s).map f

/-! ## One step of each command: the spec's examples -/

/-- 46_engine.md R587: NOP after a failed command clears STATUS.ERR. -/
theorem test_nop : shows .nop { at8 with err := .badArg } (fun t => (t.err, statusWord t)) = some (.ok, 0x100#32) := by
  decide +kernel

/-- R305. -/
theorem test_osc_create :
    shows .oscCreate (inited 48000 256 0x40AAAAAB#32) (fun t => (t.res.r0, (poolGet t.osc 0).map (·.inc))) =
      some (0x01000000#32, some 0x3D6BE9A5#32) := by decide +kernel

/-- V-OSC-17: no free slot. -/
theorem test_osc_create_full :
    shows .oscCreate { at8 with osc := List.replicate 16 (some (newOsc 8000)) } (fun t => (t.err, t.res.r0)) =
      some (.poolFull, 0xFFFFFFFF#32) := by decide +kernel

/-- R306: 30000 Hz is clamped; V-OSC-9's increment at sr 8000. -/
theorem test_osc_set_freq :
    shows .oscSetFreq (withArgs at8 0x01000000#32 0x46EA6000#32 0 0) (fun t => (poolGet t.osc 0).map (fun u => (u.freq, u.inc))) =
      some (some (0x469C4000#32, 0x417B53D2#32)) := by decide +kernel

/-- R632's example (V-OSC-16): the handle is checked before the value. -/
theorem test_osc_set_freq_check_order :
    shows .oscSetFreq (withArgs at8 0x09000000#32 0x7FC00000#32 0 0) (·.err) = some .badHandle ∧
    shows .oscSetFreq (withArgs at8 0x01000000#32 0x7FC00000#32 0 0) (·.err) = some .badArg := by decide +kernel

/-- R307. -/
theorem test_osc_set_amp :
    shows .oscSetAmp (withArgs at8 0x01000000#32 0x3FC00000#32 0 0) (fun t => (poolGet t.osc 0).map (·.amp)) =
      some (some 0x3F800000#32) := by decide +kernel

/-- R308: the next sample at phase 0 is -1.0·amp. -/
theorem test_osc_set_wave :
    shows .oscSetWave (withArgs at8 0x01000000#32 3 0 0) (fun t => (poolGet t.osc 0).map (fun u => (oscStep u 0).1)) =
      some (some 0xBF800000#32) := by decide +kernel

/-- R311. -/
theorem test_poly_create : shows .polyCreate (inited 8000 16 0) (·.res.r0) = some 0x02000000#32 := by decide +kernel

/-- R312 (V-POLY-3). -/
theorem test_poly_note_on :
    shows .polyNoteOn (withArgs at8 0x02000000#32 69 100 0)
      (fun t => (t.res.r0, (poolGet t.poly 0).bind (fun u => u.voice.head?.map (fun v => (v.freq, v.amp, v.note))))) =
      some (0, some (0x43DC0000#32, 0x3F499326#32, some 69)) := by decide +kernel

/-- A POLY with notes 60 to 67 mapped in order. -/
def fullPoly : Poly :=
  { newPoly 8000 with voice := (List.finRange 8).map (fun j => { newVoice 8000 with note := some (60 + j.castLE (by decide)) }) }

/-- V-POLY-7: with every voice taken a ninth note steals voice 0. -/
theorem test_poly_note_on_steals :
    shows .polyNoteOn (withArgs { at8 with poly := [some fullPoly, none, none, none] } 0x02000000#32 68 127 0)
      (fun t => (t.res.r0, (poolGet t.poly 0).map (fun u => u.voice.map (·.note)))) =
      some (0, some [some 68, some 61, some 62, some 63, some 64, some 65, some 66, some 67]) := by decide +kernel

/-- V-POLY-8, V-POLY-9: a note that is not mapped, and one that is. -/
theorem test_poly_note_off :
    shows .polyNoteOff (withArgs { at8 with poly := [some fullPoly, none, none, none] } 0x02000000#32 68 0 0)
      (fun t => (t.err, t.res.r0)) = some (.ok, 0) ∧
    shows .polyNoteOff (withArgs { at8 with poly := [some fullPoly, none, none, none] } 0x02000000#32 63 0 0)
      (fun t => (t.res.r0, (poolGet t.poly 0).map (fun u => mappedCount u.voice))) = some (1, some 7) := by decide +kernel

/-- R314. -/
theorem test_poly_set_wave :
    shows .polySetWave (withArgs at8 0x02000000#32 4 0 0) (fun t => (poolGet t.poly 0).map (·.wave)) = some (some .noise) := by
  decide +kernel

/-- R355, with V-ENV-1's rates at sr 44100. -/
theorem test_env_create :
    shows .envCreate (inited 44100 256 0) (fun t => (t.res.r0, (poolGet t.env 0).map (fun e => (e.attackRate, e.decayRate, e.releaseRate)))) =
      some (0x03000000#32, some (0x396DC5B8#32, 0x388EA9D5#32, 0x389E83CF#32)) := by decide +kernel

/-- R356: 10 s is clamped to 5 s, and the rate at 44100 is 1/220500. -/
theorem test_env_set_attack :
    shows .envSetAttack (withArgs at44 0x03000000#32 0x41200000#32 0 0)
      (fun t => (poolGet t.env 0).map (fun e => (e.attackT, e.attackRate))) =
      some (some (0x40A00000#32, B32.ofRatio 1 220500)) := by decide +kernel

/-- R357. -/
theorem test_env_set_decay :
    shows .envSetDecay (withArgs at44 0x03000000#32 0x3A03126F#32 0 0) (fun t => (poolGet t.env 0).map (·.decayT)) =
      some (some 0x3A83126F#32) := by decide +kernel

/-- R358: at sustain 1.0 the decay rate is +0.0. -/
theorem test_env_set_sustain :
    shows .envSetSustain (withArgs at44 0x03000000#32 0x3F800000#32 0 0) (fun t => (poolGet t.env 0).map (·.decayRate)) =
      some (some 0) := by decide +kernel

/-- R359: 1.0 s at 44100 gives 1/44100. -/
theorem test_env_set_release :
    shows .envSetRelease (withArgs at44 0x03000000#32 0x3F800000#32 0 0) (fun t => (poolGet t.env 0).map (·.releaseRate)) =
      some (some (B32.ofRatio 1 44100)) := by decide +kernel

/-- R360 (V-ENV-12). -/
theorem test_env_note_on :
    shows .envNoteOn (withArgs at8 0x03000000#32 0 0 0) (fun t => (poolGet t.env 0).map (fun e => (e.state, e.level))) =
      some (some (.attack, 0x38D1B717#32)) := by decide +kernel

/-- R361 (V-ENV-5): state 4 after the command, the level kept. -/
theorem test_env_note_off :
    shows .envNoteOff (withArgs at8 0x03000000#32 0 0 0) (fun t => (poolGet t.env 0).map (fun e => (e.state, e.level, (envStep e).state))) =
      some (some (.release, 0, .idle)) := by decide +kernel

/-- R362, with trace E8 after its eighth step: level 1.0 in state 2. -/
theorem test_env_get :
    shows .envGet (withArgs { at8 with env := [some { newEnv 8000 with level := 0x3F800000#32, state := .decay }] } 0x03000000#32 0 0 0)
      (·.res) = some ⟨0x3F800000#32, 2, 0, 0, 0, 0⟩ := by decide +kernel

/-- The envelope of trace E8 of V-ENV: sr 8000, times 0.001, sustain 0.5, its rates 0.125, 0.0625, 0.125. -/
def envE8 : Env :=
  withRates { newEnv 8000 with attackT := 0x3A83126F#32, decayT := 0x3A83126F#32, releaseT := 0x3A83126F#32, sustain := 0x3F000000#32 }

/-- Trace E8: steps 1, 8, 9 and 16, and the release after it. -/
theorem test_env_trace_e8 :
    (envGen 16 (envOn envE8)).1 =
      [0x3E001A37#32, 0x3E800D1C#32, 0x3EC00D1C#32, 0x3F00068E#32, 0x3F20068E#32, 0x3F40068E#32, 0x3F60068E#32, 0x3F800000#32,
        0x3F700000#32, 0x3F600000#32, 0x3F500000#32, 0x3F400000#32, 0x3F300000#32, 0x3F200000#32, 0x3F100000#32, 0x3F000000#32] ∧
    (envGen 4 (envOff { envE8 with level := 0x3F000000#32, state := .sustain })).1 =
      [0x3EC00000#32, 0x3E800000#32, 0x3E000000#32, 0x00000000#32] := by decide +kernel

/-- R364. -/
theorem test_epool_create : shows .epoolCreate (inited 8000 16 0) (·.res.r0) = some 0x04000000#32 := by decide +kernel

/-- A pool with notes 60 and 62 on members 0 and 1, and one with every member taken. -/
def pool2 : EPool :=
  { newEpool 8000 with member := ⟨envOn envE8, some 60⟩ :: ⟨envOn envE8, some 62⟩ :: List.replicate 6 ⟨envE8, none⟩ }
def pool8 : EPool :=
  { newEpool 8000 with
    member := (List.finRange 8).map (fun j => ⟨{ envE8 with level := 0x3F000000#32, state := .sustain }, some (60 + j.castLE (by decide))⟩) }

/-- R365 (V-EPOOL-1, V-EPOOL-2): the third note gets member 2; a ninth steals member 0, which keeps its level. -/
theorem test_epool_note_on :
    shows .epoolNoteOn (withArgs { at8 with epool := [some pool2, none, none, none] } 0x04000000#32 64 0 0) (·.res.r0) = some 2 ∧
    shows .epoolNoteOn (withArgs { at8 with epool := [some pool8, none, none, none] } 0x04000000#32 70 0 0)
      (fun t => (t.res.r0, (poolGet t.epool 0).bind (fun p => p.member.head?.map (fun m => (m.note, m.env.level, m.env.state))))) =
      some (0, some (some 70, 0x3F000000#32, .attack)) := by decide +kernel

/-- R366 (V-EPOOL-3). -/
theorem test_epool_note_off :
    shows .epoolNoteOff (withArgs { at8 with epool := [some pool2, none, none, none] } 0x04000000#32 60 0 0)
      (fun t => (t.res.r0, (poolGet t.epool 0).bind (fun p => p.member.head?.map (fun m => (m.note, m.env.state))))) =
      some (1, some (none, .release)) := by decide +kernel

/-- R367. -/
theorem test_epool_set :
    shows .epoolSet (withArgs at8 0x04000000#32 2 0x3F000000#32 0)
      (fun t => (poolGet t.epool 0).map (fun p => p.member.map (·.env.sustain))) =
      some (some (List.replicate 8 0x3F000000#32)) := by decide +kernel

/-- R368 (V-EPOOL-5): eight steps of an attack of 0.125 a step. -/
theorem test_epool_advance :
    shows .epoolAdvance (withArgs { at8 with epool := [some pool2, none, none, none] } 0x04000000#32 8 0 0)
      (fun t => (poolGet t.epool 0).map (fun p => p.member.map (fun m => (m.env.level, m.env.state)))) =
      some (some ([(0x3F800000#32, .decay), (0x3F800000#32, .decay)] ++ List.replicate 6 (0, .idle))) := by decide +kernel

/-- R369. -/
theorem test_epool_get :
    shows .epoolGet (withArgs at8 0x04000000#32 3 0 0) (·.res) = some ⟨0, 0, 0xFFFFFFFF#32, 0, 0, 0⟩ ∧
    shows .epoolGet (withArgs at8 0x04000000#32 8 0 0) (·.err) = some .badArg := by decide +kernel

/-- R404 (V-DLY-1). -/
theorem test_dly_create :
    shows .dlyCreate (inited 44100 256 0) (fun t => (t.res.r0, (poolGet t.dly 0).map (fun u => (u.len, u.d)))) =
      some (0x05000000#32, some (44100, 4410)) := by decide +kernel

/-- R405 (V-DLY-2). -/
theorem test_dly_set_time :
    shows .dlySetTime (withArgs at8 0x05000000#32 0x3A03126F#32 0 0) (fun t => (poolGet t.dly 0).map (·.d)) = some (some 4) := by
  decide +kernel

/-- R406. -/
theorem test_dly_set_feedback :
    shows .dlySetFeedback (withArgs at8 0x05000000#32 0x40000000#32 0 0) (fun t => (poolGet t.dly 0).map (·.feedback)) =
      some (some 0x3F733333#32) := by decide +kernel

/-- R409, with R407's first coefficient. -/
theorem test_flt_create :
    shows .fltCreate (inited 44100 256 0) (fun t => (t.res.r0, (poolGet t.flt 0).map (fun u => (u.co.b0, u.mix.dry, u.mix.wet)))) =
      some (0x06000000#32, some (0x3B96DD3B#32, 0, 0x3F800000#32)) := by decide +kernel

/-- R410. -/
theorem test_flt_set_mode :
    shows .fltSetMode (withArgs at44 0x06000000#32 1 0 0) (fun t => (poolGet t.flt 0).map (·.co)) =
      some (some ⟨0x3F677685#32, 0xBFE77685#32, 0x3F677685#32, 0xBFE648CB#32, 0x3F51487F#32⟩) := by decide +kernel

/-- R411 (V-FLT-6): at sr 8000 a cutoff of 5000; and R411's clamp. -/
theorem test_flt_set_cutoff :
    shows .fltSetCutoff (withArgs at8 0x06000000#32 0x459C4000#32 0 0) (fun t => (poolGet t.flt 0).map (fun u => (u.co.b0, u.co.a1))) =
      some (some (0x3FDA827A#32, 0x403504F2#32)) ∧
    shows .fltSetCutoff (withArgs at8 0x06000000#32 0x40A00000#32 0 0) (fun t => (poolGet t.flt 0).map (·.cutoff)) =
      some (some 0x41A00000#32) := by decide +kernel

/-- R412, and V-FLT-5's coefficients. -/
theorem test_flt_set_q :
    shows .fltSetQ (withArgs at8 0x06000000#32 0x42C80000#32 0 0) (fun t => (poolGet t.flt 0).map (·.q)) = some (some 0x41200000#32) ∧
    shows .fltSetQ (withArgs at44 0x06000000#32 0 0 0) (fun t => (poolGet t.flt 0).map (·.co)) =
      some (some ⟨0x3B422B43#32, 0x3BC22B43#32, 0x3B422B43#32, 0xBF943172#32, 0x3E2DAE45#32⟩) := by decide +kernel

/-- R415. -/
theorem test_rev_create :
    shows .revCreate (inited 48000 256 0) (fun t => (t.res.r0, (poolGet t.rev 0).map (fun u => (u.len, u.d)))) =
      some (0x07000000#32, some (⟨4320, 6480, 8640, 14400⟩, ⟨2880, 4320, 5760, 9600⟩)) := by decide +kernel

/-- R416. -/
theorem test_rev_set_room :
    shows .revSetRoom (withArgs at44 0x07000000#32 0 0 0) (fun t => (poolGet t.rev 0).map (·.d)) =
      some (some ⟨1323, 1985, 2646, 4410⟩) := by decide +kernel

/-- R417. -/
theorem test_rev_set_decay :
    shows .revSetDecay (withArgs at44 0x07000000#32 0x3F800000#32 0 0) (fun t => (poolGet t.rev 0).map (·.decay)) =
      some (some 0x3F733333#32) := by decide +kernel

/-- R418 (V-FX-1). -/
theorem test_fx_set_dry :
    shows .fxSetDry (withArgs at8 0x06000000#32 0x3F000000#32 0 0) (fun t => (poolGet t.flt 0).map (·.mix.dry)) =
      some (some 0x3F000000#32) ∧
    shows .fxSetDry (withArgs at8 0x01000000#32 0x3F000000#32 0 0) (·.err) = some .badHandle := by decide +kernel

/-- R419 (V-FX-3). -/
theorem test_fx_set_wet :
    shows .fxSetWet (withArgs at8 0x05000000#32 0x3FC00000#32 0 0) (fun t => (poolGet t.dly 0).map (·.mix.wet)) =
      some (some 0x3F800000#32) := by decide +kernel

/-- R420 (V-FX-2). -/
theorem test_fx_set_bypass :
    shows .fxSetBypass (withArgs at8 0x05000000#32 1 0 0) (fun t => (poolGet t.dly 0).map (·.mix.bypass)) = some (some true) ∧
    shows .fxSetBypass (withArgs at8 0x05000000#32 2 0 0) (·.err) = some .badArg := by decide +kernel

/-- A delay of distance 4 at sr 8000, and a window holding one frame (1.0, 0.5). -/
def dly4 : Dly := { newDly 8000 with time := 0x3A03126F#32, d := 4 }
def impulse : Memory := Memory.setWords [] 0 [0x3F800000#32, 0x3F000000#32]

/-- R421 (P2 line 6): L' = 1, 0, 0, 0, 0.5, ... and R' half of it. -/
theorem test_fx_process :
    shows .fxProcess (withArgs { at8 with dly := [some dly4, none, none, none], swin := impulse } 0x05000000#32 9 0 0)
      (fun t => t.swin.words 18) =
      some [0x3F800000#32, 0x3F000000#32, 0, 0, 0, 0, 0, 0, 0x3F000000#32, 0x3E800000#32, 0, 0, 0, 0, 0, 0, 0x3E19999A#32,
        0x3D99999A#32] := by decide +kernel

/-- V-FLT-1: the creation filter's impulse response, as one block of six frames. -/
theorem test_fx_process_filter :
    shows .fxProcess (withArgs { at44 with swin := impulse } 0x06000000#32 6 0 0)
      (fun t => (t.swin.frames 6).map (·.1)) =
      some [0x3B96DD3B#32, 0x3C8F4972#32, 0x3D0455B7#32, 0x3D338382#32, 0x3D56C6F0#32, 0x3D6FA669#32] := by decide +kernel

/-- A mixer that gave out ids 0, 1 and 2 and removed 1. -/
def mixer02 : Mixer := ⟨3, 0x3F800000#32, [(0, newChannel), (2, newChannel)]⟩

/-- R476 (V-MIX-5): the next id is 3. -/
theorem test_mix_add_channel :
    shows .mixAddChannel { at8 with mixer := some mixer02 } (fun t => (t.res.r0, t.mixer.map (fun m => (m.nextId, m.ch.map (·.1))))) =
      some (3, some (4, [0, 2, 3])) := by decide +kernel

/-- R477 (V-MIX-5, V-MIX-7). -/
theorem test_mix_remove_channel :
    shows .mixRemoveChannel (withArgs { at8 with mixer := some mixer02 } 0 0 0 0) (fun t => (t.res.r0, t.mixer.map (fun m => m.ch.map (·.1)))) =
      some (1, some [2]) ∧
    shows .mixRemoveChannel (withArgs { at8 with mixer := some mixer02 } 1 0 0 0) (·.err) = some .badHandle := by decide +kernel

/-- R478. -/
theorem test_ch_connect :
    shows .chConnect (withArgs { at8 with mixer := some mixer02 } 0x01000000#32 2 0 0)
      (fun t => (t.res.r0, t.mixer.map (fun m => m.ch.map (·.2.src)))) = some (1, some [none, some (.osc 0)]) := by decide +kernel

/-- R479: from vol 0 a ramp of 441 samples at 44100. -/
theorem test_ch_set_volume :
    shows .chSetVolume (withArgs { at44 with mixer := some ⟨1, 0x3F800000#32, [(0, { newChannel with vol := ⟨0, 0, 0, 0⟩ })]⟩ }
        0 0x3F800000#32 0 0) (fun t => t.mixer.map (fun m => m.ch.map (·.2.vol))) =
      some (some [⟨0, 0x3F800000#32, 441, 0x3B149B93#32⟩]) := by decide +kernel

/-- V-MIX-13: a NaN duration is ignored with RAMP_GIVEN = 0, and refused with RAMP_GIVEN = 1. -/
theorem test_ch_set_volume_nan_ms :
    shows .chSetVolume (withArgs { at44 with mixer := some mixer02 } 0 0x3F800000#32 0x7FC00000#32 0) (·.err) = some .ok ∧
    shows .chSetVolume (withArgs { at44 with mixer := some mixer02 } 0 0x3F800000#32 0x7FC00000#32 1) (·.err) = some .badArg := by
  decide +kernel

/-- R480: pan 0.5 at once gives the gains 0.25 and 0.75 at vol 1. -/
theorem test_ch_set_pan :
    shows .chSetPan (withArgs { at44 with mixer := some mixer02 } 0 0x3F000000#32 0 1)
      (fun t => t.mixer.map (fun m => m.ch.head?.map (fun p => (gainL p.2.vol.cur p.2.pan.cur, gainR p.2.vol.cur p.2.pan.cur)))) =
      some (some (some (0x3E800000#32, 0x3F400000#32))) := by decide +kernel

/-- R481, by the expansion of CH_MUTE (30_encoding.md R207). -/
theorem test_ch_set_mute :
    shows .chSetMute (withArgs { at44 with mixer := some mixer02 } 0 1 0 0) (fun t => t.mixer.map (fun m => m.ch.map (·.2.mute))) =
      some (some [true, false]) := by decide +kernel

/-- R482. -/
theorem test_mix_set_master :
    shows .mixSetMaster (withArgs at8 0x3F000000#32 0 0 0) (fun t => t.mixer.map (·.master)) = some (some 0x3F000000#32) := by
  decide +kernel

/-- V-MIX-11: master 0.5 over Scenario A's channel (an oscillator at 44100). -/
theorem test_mix_generate :
    shows .mixGenerate (withArgs { at44 with mixer := some ⟨1, 0x3F000000#32, [(0, { newChannel with src := some (.osc 0) })]⟩ } 4 0 0 0)
      (fun t => t.swin.frames 4) =
      some [(0, 0), (0x3C804DC2#32, 0x3C804DC2#32), (0x3D000D3C#32, 0x3D000D3C#32), (0x3D3F72CF#32, 0x3D3F72CF#32)] := by
  decide +kernel

/-- R483: with no channels the window's first 2n words become +0.0, and word 2n keeps its value. -/
theorem test_mix_generate_silence :
    shows .mixGenerate (withArgs { at8 with swin := Memory.setWords [] 0 [1#32, 2#32, 3#32] } 1 0 0 0) (fun t => t.swin.words 3) =
      some [0, 0, 3] := by decide +kernel

/-- R484 (V-MIX-16): a fresh oscillator at sr 48000. -/
theorem test_src_generate :
    shows .srcGenerate (withArgs (withUnits (inited 48000 256 0)) 0x01000000#32 4 0 0)
      (fun t => (t.swin.words 4, (poolGet t.osc 0).map (·.phase))) =
      some ([0x00000000#32, 0x3D6BC83E#32, 0x3DEB642A#32, 0x3E300E2C#32], some 0x3E6BE9A5#32) := by decide +kernel

/-- V-POLY-5: two voices, summed and divided by 2. -/
theorem test_src_generate_poly :
    shows .srcGenerate (withArgs { at8 with poly := [some { newPoly 8000 with
        voice := ⟨0x43DC0000#32, 0x3EB0EF3B#32, 0x3F800000#32, 0, some 69⟩ :: ⟨0x445C0000#32, 0x3F30EF3B#32, 0x3F800000#32, 0, some 81⟩ ::
          List.replicate 6 (newVoice 8000) }] } 0x02000000#32 3 0 0)
      (fun t => t.swin.words 3) = some [0x00000000#32, 0x3EF9E5BA#32, 0x3F4F52B0#32] := by decide +kernel

/-- A FIFO of 4 frames holding two. -/
def fifo2 : Fifo := ⟨4, [(1#32, 2#32), (0x7FC00001#32, 4#32)], 0, 0⟩

/-- R532 (V-BUF-1 at cap 4): three frames into two free places. -/
theorem test_fifo_write :
    shows .fifoWrite (withArgs { at8 with fifo := some fifo2, swin := Memory.setWords [] 0 [5#32, 6#32, 7#32, 8#32, 9#32] } 3 0 0 0)
      (fun t => (t.res.r0, t.fifo)) =
      some (2, some ⟨4, [(1, 2), (0x7FC00001#32, 4), (5, 6), (7, 8)], 1, 0⟩) := by decide +kernel

/-- R533 (V-BUF-2, V-BUF-9): two frames of three asked for, bit for bit, then silence. -/
theorem test_fifo_read :
    shows .fifoRead (withArgs { at8 with fifo := some fifo2 } 3 0 0 0) (fun t => (t.res.r0, t.fifo, t.swin.words 6)) =
      some (2, some ⟨4, [], 0, 1⟩, [1, 2, 0x7FC00001#32, 4, 0, 0]) := by decide +kernel

/-- R534 (V-BUF-3). -/
theorem test_fifo_peek :
    shows .fifoPeek (withArgs { at8 with fifo := some fifo2 } 3 0 0 0) (fun t => (t.res.r0, t.fifo, t.swin.words 6)) =
      some (2, some fifo2, [1, 2, 0x7FC00001#32, 4, 0, 0]) := by decide +kernel

/-- R535 (V-BUF-4 at cap 4): half full. -/
theorem test_fifo_metrics :
    shows .fifoMetrics { at8 with fifo := some fifo2 } (·.res) = some ⟨2, 4, 0, 0, 0x3F000000#32, 0⟩ := by decide +kernel

/-- R536 (V-BUF-5): C = 4, five samples. -/
theorem test_ring_write :
    shows .ringWrite (withArgs { inited 8000 1 0 with swin := Memory.setWords [] 0 [11#32, 12#32, 13#32, 14#32, 15#32] } 5 0 0 0)
      (fun t => (t.res.r0, t.ring)) = some (3, some ⟨4, [(0, 11), (1, 12), (2, 13)], 3, 0, 1, 0⟩) := by decide +kernel

/-- R537 (V-BUF-6). -/
theorem test_ring_read :
    shows .ringRead (withArgs { inited 8000 1 0 with ring := some ⟨4, [(0, 11), (1, 12), (2, 13)], 3, 0, 1, 0⟩ } 4 0 0 0)
      (fun t => (t.res.r0, t.ring, t.swin.words 4)) =
      some (3, some ⟨4, [(0, 11), (1, 12), (2, 13)], 3, 3, 1, 1⟩, [11, 12, 13, 0]) := by decide +kernel

/-- R538 (V-BUF-7, V-BUF-8). -/
theorem test_ring_metrics :
    shows .ringMetrics { inited 8000 1 0 with ring := some ⟨4, [(0, 11), (1, 12), (2, 13)], 3, 0, 1, 0⟩ } (·.res) =
      some ⟨3, 4, 1, 0, 0x3F400000#32, 0⟩ ∧
    shows .ringMetrics (inited 8000 256 0) (·.res) = some ⟨0, 1024, 0, 0, 0, 0⟩ := by decide +kernel

/-- R580 (V-ENG-1). -/
theorem test_eng_init :
    shows .engInit (withArgs State.reset 44100 2 256 0)
      (fun t => [t.res.r0, statusWord t, t.eng.latency, regRead t .cfgSr, regRead t .cfgCh, regRead t .cfgBufsz]) =
      some [1, 0x100#32, 0x40B9C277#32, 44100, 2, 256] ∧
    shows .engInit (withArgs State.reset 44100 2 256 0) (fun t => (t.fifo.map (·.cap), t.ring.map (·.slots))) =
      some (some 1024, some 1024) := by decide +kernel

/-- What a command leaves in STATUS and RES0. -/
def statusAndRes0 (t : State) : Word × Word := (statusWord t, t.res.r0)

/-- V-ENG-3. -/
theorem test_eng_init_config_error :
    shows .engInit (withArgs State.reset 44100 1 256 0) statusAndRes0 = some (6, 0) ∧
    shows .engInit (withArgs State.reset 7999 2 256 0) statusAndRes0 = some (6, 0) ∧
    shows .engInit (withArgs State.reset 192001 2 256 0) statusAndRes0 = some (6, 0) ∧
    shows .engInit (withArgs State.reset 44100 2 0 0) statusAndRes0 = some (6, 0) ∧
    shows .engInit (withArgs State.reset 44100 2 8193 0) statusAndRes0 = some (6, 0) := by decide +kernel

/-- R581 (V-ENG-4, V-ENG-5): with either answer of the device. -/
theorem test_eng_start :
    shows .engStart at8 statusWord = some (if Config.devOk 0 then 0x200#32 else 0x107#32) := by
  unfold shows after
  show Option.map statusWord (match execEngStart at8 with | .next t => some t | _ => none) = _
  have h : execEngStart at8 = if Config.devOk 0 then
      .next ((at8.deviceAsked.setEng { at8.eng with state := .running }).succeed (resOne (boolWord true)))
      else .next (at8.deviceAsked.raise .deviceError 0) := rfl
  rw [h]; cases Config.devOk 0 <;> rfl

/-- The engine at 8000, 16, running. -/
def running8 : State := { at8 with eng := { at8.eng with state := .running } }

/-- R582 (V-ENG-7): STOPPED whatever the device answers. -/
theorem test_eng_stop :
    shows .engStop running8 statusWord = some (if Config.devOk 0 then 0x100#32 else 0x107#32) := by
  unfold shows after
  show Option.map statusWord (match execEngStop running8 with | .next t => some t | _ => none) = _
  have h : execEngStop running8 = if Config.devOk 0 then
      .next ((running8.deviceAsked.setEng { running8.eng with state := .stopped }).succeed (resOne (boolWord true)))
      else .next ((running8.deviceAsked.setEng { running8.eng with state := .stopped }).raise .deviceError 0) := rfl
  rw [h]; cases Config.devOk 0 <;> rfl

/-- R584. -/
theorem test_eng_get_metrics :
    shows .engGetMetrics { at44 with eng := { at44.eng with underruns := 1, peak := 0x3E1DDEA6#32, cpuload := 0x3D000000#32 } } (·.res) =
      some ⟨0x3D000000#32, 1, 0x40B9C277#32, 0x3E1DDEA6#32, 0, 0⟩ := by decide +kernel

/-- R585 (V-ENG-10). -/
theorem test_eng_add_proc :
    shows .engAddProc (withArgs at8 0x05000000#32 0 0 0) (fun t => (t.res.r0, t.chain)) = some (1, [.dly 0]) ∧
    shows .engAddProc (withArgs { at8 with chain := [.dly 0] } 0x05000000#32 0 0 0) (fun t => (t.err, t.res.r0, t.chain)) =
      some (.duplicate, 0, [.dly 0]) := by decide +kernel

/-- R586 (V-ENG-12). -/
theorem test_eng_remove_proc :
    shows .engRemoveProc (withArgs { at8 with chain := [.dly 0, .flt 0, .rev 0] } 0x06000000#32 0 0 0) (fun t => (t.res.r0, t.chain)) =
      some (1, [.dly 0, .rev 0]) ∧
    shows .engRemoveProc (withArgs { at8 with chain := [.dly 0, .rev 0] } 0x06000000#32 0 0 0) (fun t => (t.err, t.res.r0, t.chain)) =
      some (.ok, 0, [.dly 0, .rev 0]) := by decide +kernel

/-! ## Frame requests and bus accesses -/

/-- P3 line 6: four frames of an oscillator at 0.5 in both lanes. -/
theorem test_frame :
    let t := frameRequest { at44 with mixer := some ⟨1, 0x3F800000#32, [(0, { newChannel with src := some (.osc 0) })]⟩ } 4
    t.out = [0, 0, 0x3D004DC2#32, 0x3D004DC2#32, 0x3D800D3C#32, 0x3D800D3C#32, 0x3DBF72CF#32, 0x3DBF72CF#32] ∧
      t.eng.peak = 0x3DBF72CF#32 := by decide +kernel

/-- P4 lines 1 and 8, V-ENG-15, V-ENG-19: the error path, and a request for no frames. -/
theorem test_frame_error_path :
    (frameRequest State.reset 2).out = [0, 0, 0, 0] ∧ (frameRequest State.reset 2).eng.underruns = 1 ∧
    (frameRequest at8 17).out.length = 34 ∧
    (frameRequest { State.reset with eng := { State.reset.eng with underruns := 0xFFFFFFFF#32 } } 1).eng.underruns = 0xFFFFFFFF#32 ∧
    (frameRequest at8 0).eng.cpuload = 0 := by decide +kernel

/-- 20_memory.md R157: the byte lanes of the output region, and none past it. -/
theorem test_out_bytes :
    (List.range 9).map (outByte { at8 with out := [0x3D004DC2#32, 0xBF800000#32] }) =
      [some 0xC2#8, some 0x4D#8, some 0x00#8, some 0x3D#8, some 0x00#8, some 0x00#8, some 0x80#8, some 0xBF#8, none] := by
  decide

/-- V-ENG-16: a filter in the chain whose history is +Inf turns every frame to silence and an underrun. -/
theorem test_frame_non_finite :
    let flt : Flt := { newFlt 8000 with hist := ⟨⟨0x7F800000#32, 0, 0, 0⟩, ⟨0, 0, 0, 0⟩⟩ }
    let t := frameRequest { at8 with flt := [some flt, none, none, none], chain := [.flt 0] } 1
    t.out = [0, 0] ∧ t.eng.underruns = 1 := by decide +kernel

/-- V-BUS-1 to V-BUS-7: byte lanes, the identification words, an ignored write, a reserved offset, the window's last word. -/
theorem test_bus :
    (List.range 4).map (fun r => portByte (withArgs State.reset 0 0x43DC0000#32 0 0) (0x08 + r)) = [0x00#8, 0x00#8, 0xDC#8, 0x43#8] ∧
    (List.range 4).map (fun r => portByte State.reset (0x4C + r)) = [0x4F#8, 0x53#8, 0x47#8, 0x41#8] ∧
    portRead State.reset 0x50 = 7 ∧ portRead State.reset 0x54 = 0 ∧
    (match step { State.reset with inputs := [.busWrite 0x1FFFC 4 0x12345678#32] } with
      | .next t => some (portRead t 0x1FFFC, t.swin)
      | _ => none) =
      some (0x12345678#32, [(0x1FFFC, 0x78#8), (0x1FFFD, 0x56#8), (0x1FFFE, 0x34#8), (0x1FFFF, 0x12#8)]) := by decide +kernel

/-- V-BUS-4, V-BUS-6, V-BUS-8. -/
theorem test_bus_refused :
    step { State.reset with inputs := [.busWrite 0x4C 4 0x12345678#32] } = .next State.reset ∧
    step { State.reset with inputs := [.busWrite 0x04 2 1#32] } = .refused (.busError 0x04 2) ∧
    step { State.reset with inputs := [.busRead 0x06 4] } = .refused (.busError 0x06 4) ∧
    step { State.reset with inputs := [.busRead 0x20000 4] } = .refused (.busError 0x20000 4) := by
  refine ⟨?_, ?_, ?_, ?_⟩ <;> rfl

/-- V-ENC-2: an illegal word at the port. -/
theorem test_illegal_word :
    (match step (State.reset.withFetchWord 32 0x01) with
      | .next t => some (statusWord t, t.cmd, t.res)
      | _ => none) = some (1, 1, ⟨0, 0, 0, 0, 0, 0⟩) := by decide +kernel

/-! ## Witnesses: states and operands that meet the hypotheses of each obligation -/

/-- Two clauses' worth of state: a channel fed by oscillator 0 and the delay in the chain. -/
def bench : State :=
  { at8 with
    mixer := some ⟨1, 0x3F800000#32, [(0, { newChannel with src := some (.osc 0) })]⟩
    chain := [.dly 0] }

theorem mem_slot {α : Type} {u x : α} {n : Nat} (h : some u ∈ some x :: List.replicate n none) : u = x := by
  rcases List.mem_cons.1 h with h | h
  · exact Option.some.inj h
  · exact absurd (List.mem_replicate.1 h).2 (by simp)

theorem test_rate : RateOk 8000 ∧ RateOk 192000 := ⟨⟨by decide, by decide⟩, ⟨by decide, by decide⟩⟩

theorem test_dly_fresh : DlyOk (newDly 8000) :=
  dlyOk_new test_rate.1 (by decide +kernel) ⟨by decide +kernel, by decide +kernel⟩

theorem test_rev_fresh : RevOk (newRev 8000) := by
  have hl : (newRev 8000).len = ⟨720, 1080, 1440, 2400⟩ := by decide +kernel
  have hd : (newRev 8000).d = ⟨480, 720, 960, 1600⟩ := by decide +kernel
  have hn : LinesOk (newRev 8000).len (newRev 8000).line.l := by
    refine ⟨delayBufOk_new ?_, delayBufOk_new ?_, delayBufOk_new ?_, delayBufOk_new ?_⟩ <;> (rw [hl]; decide)
  refine ⟨test_rate.1, rfl, rfl, ?_, ?_, ?_, ?_, hn, hn⟩ <;> (rw [hd, hl]; decide)

theorem test_sound_bench : Sound bench where
  swin := rfl
  osc := ⟨rfl, fun u h => by obtain rfl := mem_slot h; exact oscOk_new test_rate.1⟩
  poly := ⟨rfl, fun u h => by obtain rfl := mem_slot h; exact polyOk_new test_rate.1⟩
  env := ⟨rfl, fun u h => by obtain rfl := mem_slot h; exact envOk_new test_rate.1⟩
  epool := ⟨rfl, fun u h => by obtain rfl := mem_slot h; exact epoolOk_new test_rate.1⟩
  dly := ⟨rfl, fun u h => by obtain rfl := mem_slot h; exact test_dly_fresh⟩
  flt := ⟨rfl, fun u h => by obtain rfl := mem_slot h; exact fltOk_new test_rate.1⟩
  rev := ⟨rfl, fun u h => by obtain rfl := mem_slot h; exact test_rev_fresh⟩
  mixer := fun m h => by
    obtain rfl := Option.some.inj h
    refine ⟨by decide, by simp, ?_, ?_⟩
    · simp
    · intro p hp r hr
      obtain rfl := List.mem_singleton.1 hp
      obtain rfl := Option.some.inj hr
      exact ⟨by decide, rfl⟩
  fifo := fun f h => by obtain rfl := Option.some.inj h; exact ⟨rfl, by decide⟩
  ring := fun r h => by obtain rfl := Option.some.inj h; exact ⟨rfl, by decide, by decide, rfl⟩
  chain := ⟨by decide, by decide, fun r h => by obtain rfl := List.mem_singleton.1 h; exact ⟨by decide, rfl⟩⟩
  engine := ⟨fun h => (by cases h), fun _ => ⟨by decide, by decide +kernel, rfl, rfl, rfl⟩⟩

theorem test_legal_bench : Legal bench where
  osc := fun u h => by obtain rfl := mem_slot h; exact ⟨⟨by decide, by decide⟩, ⟨by decide, by decide⟩, by decide, by decide⟩
  poly := fun u h v hv => by
    obtain rfl := mem_slot h
    obtain rfl := List.eq_of_mem_replicate hv
    exact ⟨⟨by decide, by decide⟩, ⟨by decide, by decide⟩, by decide, by decide⟩
  env := fun u h => by
    obtain rfl := mem_slot h
    exact ⟨⟨by decide, by decide⟩, ⟨by decide, by decide⟩, ⟨by decide, by decide⟩, ⟨by decide, by decide⟩, by decide, by decide⟩
  epool := fun u h v hv => by
    obtain rfl := mem_slot h
    obtain rfl := List.eq_of_mem_replicate hv
    exact ⟨⟨by decide, by decide⟩, ⟨by decide, by decide⟩, ⟨by decide, by decide⟩, ⟨by decide, by decide⟩, by decide, by decide⟩
  dly := fun u h => by
    obtain rfl := mem_slot h
    exact ⟨⟨by decide, by decide⟩, ⟨by decide, by decide⟩, ⟨by decide, by decide⟩, by decide, by decide⟩
  flt := fun u h => by
    obtain rfl := mem_slot h
    exact ⟨⟨by decide, by decide⟩, ⟨by decide, by decide⟩, ⟨by decide, by decide⟩, by decide, by decide⟩
  rev := fun u h => by
    obtain rfl := mem_slot h
    exact ⟨⟨by decide, by decide⟩, ⟨by decide, by decide⟩, ⟨by decide, by decide⟩, by decide, by decide⟩
  mixer := fun m h => by
    obtain rfl := Option.some.inj h
    refine ⟨⟨by decide, by decide⟩, fun p hp => ?_⟩
    obtain rfl := List.mem_singleton.1 hp
    exact ⟨⟨by decide, by decide⟩, by decide, by decide⟩

/-- A state whose operands alone differ is as sound. -/
theorem sound_withArgs {s : State} (h : Sound s) (a0 a1 a2 a3 : Word) : Sound (withArgs s a0 a1 a2 a3) :=
  ⟨h.swin, h.osc, h.poly, h.env, h.epool, h.dly, h.flt, h.rev, h.mixer, h.fifo, h.ring, h.chain, h.engine⟩

/-- The state before the first init, with NOP's word as the last one written. -/
def early : State := withArgs State.reset 1 2 3 4

theorem test_sound_early : Sound early :=
  ⟨rfl, ⟨rfl, by simp [early, withArgs, State.reset]⟩, ⟨rfl, by simp [early, withArgs, State.reset]⟩,
    ⟨rfl, by simp [early, withArgs, State.reset]⟩, ⟨rfl, by simp [early, withArgs, State.reset]⟩,
    ⟨rfl, by simp [early, withArgs, State.reset]⟩, ⟨rfl, by simp [early, withArgs, State.reset]⟩,
    ⟨rfl, by simp [early, withArgs, State.reset]⟩, fun _ h => (by cases h), fun _ h => (by cases h), fun _ h => (by cases h),
    ⟨by decide, by decide, fun _ h => (by cases h)⟩, ⟨fun _ => ⟨rfl, rfl, rfl, rfl, rfl, rfl⟩, fun h => absurd rfl h⟩⟩

theorem bad {s : State} {h : Word} {ks : List Kind} (e : decodeHandle s h ks = .error .badHandle) : BadHandle s h ks :=
  decodeHandle_bad.1 e

theorem namesOk_fx {s : State} {i : Instr} (hi : i = .engAddProc) (h : s.args.a0 = handleWord .dly 0)
    (ha : allocated s .dly 0 = true) : NamesOk i s ∧ ValuesOk i s := by
  subst hi
  refine ⟨fun p hp _ => ?_, fun p hp hn => ?_, fun h => (nomatch h)⟩
  · obtain rfl := List.mem_singleton.1 hp
    exact fun hb => hb .dly (.head _) 0 ⟨h, by decide, ha⟩
  · obtain rfl := List.mem_singleton.1 hp
    cases hn

/-- Slot 0 of every pool is named by its handle and holds a record. -/
theorem test_hyp_handles (a1 a2 a3 : Word) :
    (HandleNames (withArgs bench 0x01000000#32 a1 a2 a3) 0x01000000#32 .osc 0 ∧ ∃ u, bench.osc[0]? = some (some u)) ∧
    (HandleNames (withArgs bench 0x02000000#32 a1 a2 a3) 0x02000000#32 .poly 0 ∧ ∃ u, bench.poly[0]? = some (some u)) ∧
    (HandleNames (withArgs bench 0x03000000#32 a1 a2 a3) 0x03000000#32 .env 0 ∧ ∃ u, bench.env[0]? = some (some u)) ∧
    (HandleNames (withArgs bench 0x04000000#32 a1 a2 a3) 0x04000000#32 .epool 0 ∧ ∃ u, bench.epool[0]? = some (some u)) ∧
    (HandleNames (withArgs bench 0x05000000#32 a1 a2 a3) 0x05000000#32 .dly 0 ∧ ∃ u, bench.dly[0]? = some (some u)) ∧
    (HandleNames (withArgs bench 0x06000000#32 a1 a2 a3) 0x06000000#32 .flt 0 ∧ ∃ u, bench.flt[0]? = some (some u)) ∧
    (HandleNames (withArgs bench 0x07000000#32 a1 a2 a3) 0x07000000#32 .rev 0 ∧ ∃ u, bench.rev[0]? = some (some u)) :=
  ⟨⟨⟨rfl, by decide, rfl⟩, _, rfl⟩, ⟨⟨rfl, by decide, rfl⟩, _, rfl⟩, ⟨⟨rfl, by decide, rfl⟩, _, rfl⟩,
    ⟨⟨rfl, by decide, rfl⟩, _, rfl⟩, ⟨⟨rfl, by decide, rfl⟩, _, rfl⟩, ⟨⟨rfl, by decide, rfl⟩, _, rfl⟩, ⟨rfl, by decide, rfl⟩, _, rfl⟩

/-! ### Encoding and steps -/

theorem test_hyp_CommandWordsRoundTrip :
    decodeBytes [0x65#8, 0x00#8, 0x00#8, 0x00#8, 0xAA#8] = .ok (.engRemoveProc, [0xAA#8]) := by decide

/-- The ends of each reserved range, and RSV alone. -/
theorem test_hyp_IllegalCommandWords :
    (∀ op ∈ [0x01, 0x0F, 0x14, 0x17, 0x1C, 0x1F, 0x2E, 0x2F, 0x3E, 0x3F, 0x49, 0x4F, 0x57, 0x5F, 0x66, 0xFF],
      (0x01 ≤ op ∧ op ≤ 0x0F) ∨ (0x14 ≤ op ∧ op ≤ 0x17) ∨ (0x1C ≤ op ∧ op ≤ 0x1F) ∨ (0x2E ≤ op ∧ op ≤ 0x2F) ∨
        (0x3E ≤ op ∧ op ≤ 0x3F) ∨ (0x49 ≤ op ∧ op ≤ 0x4F) ∨ (0x57 ≤ op ∧ op ≤ 0x5F) ∨ 0x66 ≤ op) ∧
    (0x00000110#32).toNat / 2 ^ 8 ≠ 0 := by decide

theorem test_hyp_StepRunsCommand :
    let s : State := { bench with inputs := [.busWrite 0 4 0x00000000#32] }
    s.inputs = .busWrite s.cpBase 4 0x00000000#32 :: [] ∧ decode 0x00000000#32 = .ok .nop ∧
      ({ bench with inputs := [.frame 4] } : State).inputs = .frame 4 :: [] ∧ bench.inputs = [] := by
  refine ⟨rfl, by decide, rfl, rfl⟩

/-- The port's first and last byte, the first past it, and every clause's kind of access. -/
theorem test_hyp_BusErrors :
    (bench.cpBase % 4 = 0) ∧ ({ bench with inputs := [.busWrite 0x1FFFF 1 0#32] } : State).inputs = .busWrite 0x1FFFF 1 0#32 :: [] ∧
      (bench.cpBase ≤ 0x1FFFF ∧ 0x1FFFF < bench.cpBase + 0x20000) ∧ (0x1FFFF % 4 ≠ 0) ∧
      (bench.cpBase ≤ 0x1FFFC ∧ 0x1FFFC < bench.cpBase + 0x20000) ∧ 0x1FFFC % 4 = 0 ∧
      ¬ (bench.cpBase ≤ 0x20000 ∧ 0x20000 < bench.cpBase + 0x20000 ∧ 4 = 4 ∧ 0x20000 % 4 = 0) := by
  refine ⟨rfl, rfl, ⟨by decide, by decide⟩, by decide, ⟨by decide, by decide⟩, by decide, by decide⟩

/-- The ends of the reserved offsets and of the window. -/
theorem test_hyp_RegisterMap :
    (0x54 ≤ 0x54 ∧ 0x54 ≤ 0xFFFC ∧ portRead bench 0x54 = 0) ∧ portRead bench 0xFFFC = 0 ∧
      (0x10000 + 4 * 0 = 0x10000 ∧ 0x10000 + 4 * 16383 = 0x1FFFC) ∧
      ({ bench with inputs := [.busRead 0x1FFFC 4] } : State).inputs = .busRead (bench.cpBase + 0x1FFFC) 4 :: [] := by
  refine ⟨⟨by decide, by decide, rfl⟩, rfl, ⟨by decide, by decide⟩, rfl⟩

theorem test_hyp_ByteLanes :
    (0x10000 % 4 = 0 ∧ 0x10000 ≤ 0x10000 ∧ 0x1FFFC % 4 = 0) ∧ ({ bench with out := [1, 2] } : State).out[1]? = some 2 ∧
      4 * ({ bench with out := [1, 2] } : State).out.length ≤ 8 := by decide

/-! ### Checks -/

/-- NOT_INIT: a create before the first init. -/
theorem test_hyp_CheckOrder_not_init : Sound early ∧ ¬ EngineReady .oscCreate early :=
  ⟨test_sound_early, fun h => h.1 (.inl rfl) rfl⟩

/-- BAD_HANDLE: a kind byte that names no pool. -/
theorem test_hyp_CheckOrder_bad_handle :
    let s := withArgs bench 0x09000000#32 0 0 0
    Sound s ∧ EngineReady .oscSetFreq s ∧ ¬ NamesOk .oscSetFreq s := by
  refine ⟨sound_withArgs test_sound_bench .., ⟨by decide, by decide, by decide, by decide⟩, fun h => ?_⟩
  exact h (.handle [.osc], 0x09000000#32) (.head _) rfl (bad (by decide))

/-- BAD_ARG: a NaN after a good handle. -/
theorem test_hyp_CheckOrder_bad_arg :
    let s := withArgs bench 0x01000000#32 0x7FC00000#32 0 0
    Sound s ∧ EngineReady .oscSetFreq s ∧ NamesOk .oscSetFreq s ∧ ¬ ValuesOk .oscSetFreq s := by
  refine ⟨sound_withArgs test_sound_bench .., ⟨by decide, by decide, by decide, by decide⟩, fun p hp hn => ?_, fun h => ?_⟩
  · rcases List.mem_cons.1 hp with rfl | hp
    · exact fun h => h .osc (.head _) 0 ⟨rfl, by decide, rfl⟩
    · obtain rfl := List.mem_singleton.1 hp
      cases hn
  · exact absurd (show B32.isNaN 0x7FC00000#32 = false from h.1 (.f32, 0x7FC00000#32) (.tail _ (.head _)) rfl) (by decide)

/-- CONFIG_ERROR: a rate below the range. -/
theorem test_hyp_CheckOrder_config_error :
    let s := withArgs bench 7999#32 2 1 0
    Sound s ∧ EngineReady .engInit s ∧ NamesOk .engInit s ∧ ¬ ValuesOk .engInit s := by
  refine ⟨sound_withArgs test_sound_bench .., ⟨by decide, by decide, by decide, by decide⟩, fun p hp => (nomatch hp), fun h => ?_⟩
  exact absurd (h.2 rfl).1 (by decide)

/-- DUPLICATE: the delay that is in the chain. -/
theorem test_hyp_CheckOrder_duplicate :
    let s := withArgs bench 0x05000000#32 0 0 0
    Sound s ∧ EngineReady .engAddProc s ∧ NamesOk .engAddProc s ∧ ValuesOk .engAddProc s ∧ Duplicate .engAddProc s :=
  ⟨sound_withArgs test_sound_bench .., ⟨by decide, by decide, by decide, by decide⟩, (namesOk_fx rfl rfl rfl).1,
    (namesOk_fx rfl rfl rfl).2, rfl, .dly 0, .head _, ⟨by decide, rfl⟩, rfl⟩

/-- POOL_FULL: a create with every slot taken. -/
theorem test_hyp_CheckOrder_pool_full :
    let s : State := { bench with osc := List.replicate 16 (some (newOsc 8000)) }
    Sound s ∧ EngineReady .oscCreate s ∧ NamesOk .oscCreate s ∧ ValuesOk .oscCreate s ∧ ¬ Duplicate .oscCreate s ∧
      NoRoom .oscCreate s := by
  have b := test_sound_bench
  have ho : PoolOk Config.nOsc OscOk (List.replicate 16 (some (newOsc 8000))) :=
    ⟨rfl, fun u h => by obtain rfl := Option.some.inj (List.eq_of_mem_replicate h); exact oscOk_new test_rate.1⟩
  refine ⟨⟨b.swin, ho, b.poly, b.env, b.epool, b.dly, b.flt, b.rev, fun m h => ?_, b.fifo, b.ring, ?_, b.engine⟩, ?_⟩
  · obtain ⟨h1, h2, h3, h4⟩ := b.mixer m h
    refine ⟨h1, h2, h3, fun p hp r hr => ?_⟩
    obtain rfl := Option.some.inj h
    obtain rfl := List.mem_singleton.1 hp
    obtain rfl := Option.some.inj hr
    exact ⟨by decide, rfl⟩
  · exact ⟨b.chain.1, b.chain.2.1, fun r h => by obtain rfl := List.mem_singleton.1 h; exact ⟨by decide, rfl⟩⟩
  · refine ⟨⟨fun _ => by decide, by decide, by decide, by decide⟩, fun p hp => (nomatch hp), ⟨fun p hp => (nomatch hp), fun h => (nomatch h)⟩,
      fun h => (nomatch h.1), ?_⟩
    show none ∉ List.replicate 16 (some (newOsc 8000))
    simp

/-- DEVICE_ERROR: a request to the device, which the free draw refuses or grants; and a command that completes. -/
theorem test_hyp_CheckOrder_device :
    Sound bench ∧ EngineReady .engStart bench ∧ NamesOk .engStart bench ∧ ValuesOk .engStart bench ∧
      ¬ Duplicate .engStart bench ∧ ¬ NoRoom .engStart bench ∧ (DeviceRefuses .engStart bench ↔ Config.devOk 0 = false) ∧
      ¬ DeviceRefuses .nop bench := by
  refine ⟨test_sound_bench, ⟨fun _ => by decide, by decide, by decide, by decide⟩, fun p hp => (nomatch hp),
    ⟨fun p hp => (nomatch hp), fun h => (nomatch h)⟩, fun h => (nomatch h.1), fun h => h,
    ⟨fun h => h.2, fun h => ⟨.inl ⟨rfl, rfl⟩, h⟩⟩, fun h => ?_⟩
  rcases h.1 with ⟨h, -⟩ | ⟨h, -⟩ <;> cases h

theorem test_hyp_FailedCommandIsPrecise :
    ∃ t, exec .oscCreate early = .next t ∧ t.err = .notInit ∧ t.err ≠ .ok ∧ t.err ≠ .deviceError :=
  ⟨_, rfl, rfl, by decide, by decide⟩

/-- The four statements about any completed command, the engine's writers, the slots and the window's writers among them: a
create that takes slot 1. -/
theorem test_hyp_CommandFrames :
    (∃ t, exec .oscCreate bench = .next t ∧ t.err = .ok ∧ allocated bench .osc 1 = false ∧ allocated t .osc 1 = true ∧
      allocated bench .osc 0 = true ∧ Instr.oscCreate ∉ [Instr.engInit, .engStart, .engStop] ∧
      Instr.oscCreate ∉ [Instr.mixGenerate, .srcGenerate, .fxProcess, .fifoRead, .fifoPeek, .ringRead]) :=
  ⟨_, rfl, rfl, rfl, rfl, rfl, by decide, by decide⟩

theorem test_hyp_UnitsAreNeverFreed :
    ∃ t, step { bench with inputs := [.frame 0] } = .next t ∧ allocated bench .osc 0 = true := ⟨_, rfl, rfl⟩

theorem test_hyp_FlagWriters :
    let s := withArgs bench 0x3F000000#32 0 0 0
    ∃ t m m' c c', exec .mixSetMaster s = .next t ∧ Instr.mixSetMaster ≠ .fxSetBypass ∧
      Instr.mixSetMaster ∉ [Instr.chSetMute, .engInit] ∧ s.mixer = some m ∧ t.mixer = some m' ∧
      findChannel m.ch 0 = some c ∧ findChannel m'.ch 0 = some c' ∧ (∃ u, poolGet s.dly 0 = some u) ∧
      (∃ u, poolGet s.flt 0 = some u) ∧ (∃ u, poolGet s.rev 0 = some u) :=
  ⟨_, _, _, _, _, rfl, by decide, by decide, rfl, rfl, rfl, rfl, ⟨_, rfl⟩, ⟨_, rfl⟩, ⟨_, rfl⟩⟩

theorem test_hyp_BeforeInit :
    Sound early ∧ early.eng.state = .uninit ∧ (createdKind .oscCreate).isSome = true ∧
      Instr.engStart ∈ mixerCommands ++ fifoCommands ++ ringCommands ++ [.engStart] :=
  ⟨test_sound_early, rfl, rfl, by decide⟩

theorem test_hyp_SoundAndLegal :
    ∃ t, Sound { bench with inputs := [] } ∧ Legal bench ∧ step bench = .next t := ⟨_, test_sound_bench, test_legal_bench, rfl⟩

/-! ### Arithmetic and sources -/

/-- Finite operands, the largest and the smallest among them. -/
theorem test_hyp_ArithmeticIsCorrectlyRounded :
    (B32.isFinite 0x7F7FFFFF#32 = true ∧ B32.isFinite 0x80000001#32 = true ∧ B32.val 0x80000001#32 ≠ 0) ∧
    (B32.isFinite 0x80000000#32 = true ∧ B32.val 0x80000000#32 = 0 ∧ B32.val 0x80000000#32 + B32.val 0x00000000#32 = 0) ∧
    (B32.isNaN 0x7F800001#32 = true ∧ B32.isNaN 0xFFC00000#32 = true) ∧
    (B32.isInf 0x7F800000#32 = true ∧ B32.isInf 0xFF800000#32 = true ∧ B32.sign 0x7F800000#32 ≠ B32.sign 0xFF800000#32) := by
  decide +kernel

/-- A tie: 2.5 rounds away from zero to 3, and 2^24 is the largest integer asked of. -/
theorem test_hyp_IntegerConversions :
    B32.isFinite 0x40200000#32 = true ∧ B32.roundHalfAway 0x40200000#32 = 3 ∧
      2 * (B32.roundHalfAway 0x40200000#32 * 2 ^ 149 - B32.val 0x40200000#32).natAbs = 2 ^ 149 ∧
      B32.roundHalfAway (B32.ofNat (2 ^ 24)) = 2 ^ 24 ∧ B32.ofInt (-69) = 0xC28A0000#32 := by decide +kernel

/-- A range to clamp to, with values below, at, inside and above it (00_scope.md R10), and the counter's end (R15). -/
theorem test_hyp_clamp :
    (B32.isFinite 0xBF800000#32 = true ∧ B32.isFinite 0x3F800000#32 = true ∧ B32.val 0xBF800000#32 ≤ B32.val 0x3F800000#32) ∧
    B32.clamp 0xC0000000#32 0xBF800000#32 0x3F800000#32 = 0xBF800000#32 ∧
    B32.clamp 0x80000000#32 0xBF800000#32 0x3F800000#32 = 0x80000000#32 ∧
    B32.clamp 0x3F800001#32 0xBF800000#32 0x3F800000#32 = 0x3F800000#32 ∧
    satInc 0xFFFFFFFE#32 = 0xFFFFFFFF#32 ∧ satInc 0xFFFFFFFF#32 = 0xFFFFFFFF#32 := by decide +kernel

/-- A draw is free, so only the set it lies in is shown not to be empty: -1, 1 and +0.0 lie in the two sets. -/
theorem test_hyp_DrawsInRange :
    InRange 0xBF800000#32 0xBF800000#32 0x3F800000#32 ∧ InRange 0xBF800000#32 0x3F800000#32 0x3F800000#32 ∧
      B32.le 0 0x00000000#32 = true := ⟨⟨by decide, by decide⟩, ⟨by decide, by decide⟩, by decide⟩

/-- The ends of the phase's and the amplitude's ranges: TWO_PI itself is outside, the value before it inside. -/
theorem test_hyp_OscillatorBound :
    PhaseOk 0x40C90FDA#32 ∧ PhaseOk 0x00000000#32 ∧ ¬ PhaseOk 0x40C90FDB#32 ∧ InRange 0 0x3F800000#32 0x3F800000#32 ∧
      InRange 0 0x00000000#32 0x3F800000#32 :=
  ⟨⟨by decide, by decide⟩, ⟨by decide, by decide⟩, fun h => absurd h.2 (by decide), ⟨by decide, by decide⟩, by decide, by decide⟩

/-- A note that is mapped, one that is not with a slot free, and one with none free. -/
theorem test_hyp_NoteAllocation :
    let a : List (Option (Fin 128)) := [some 60, none, some 127]
    (NotesDistinct a ∧ a[2]? = some (some 127)) ∧ (some 0 ∉ a ∧ a[1]? = some none ∧ ∀ i, i < 1 → a[i]? ≠ some none) ∧
      (some 0 ∉ ([some 60] : List (Option (Fin 128))) ∧ none ∉ ([some 60] : List (Option (Fin 128)))) := by
  refine ⟨⟨fun i j n hi hj => ?_, rfl⟩, ⟨by decide, rfl, fun i hi => ?_⟩, by decide, by decide⟩
  · rcases i with _ | _ | _ | i <;> rcases j with _ | _ | _ | j <;> simp at hi hj <;> first | rfl | (subst hi; simp at hj)
  · obtain rfl : i = 0 := by omega
    decide

/-- Each state of an envelope, sound and legal. -/
theorem test_hyp_EnvelopeRules :
    ∀ st : EnvState, EnvOk { envE8 with state := st, level := 0x3F000000#32 } ∧
      EnvLegal { envE8 with state := st, level := 0x3F000000#32 } := by
  intro st
  have h : EnvOk { envE8 with state := st, level := 0x3F000000#32 } := ⟨test_rate.1, by simp only [envE8, withRates]⟩
  cases st <;> exact ⟨h, ⟨by decide, by decide⟩, ⟨by decide, by decide⟩, ⟨by decide, by decide⟩, ⟨by decide, by decide⟩, by decide,
    by decide⟩

/-! ### Buffers, effects, mixer, frames -/

theorem test_hyp_DelayLine : 1 ≤ 1 ∧ clampNat 0 1 1 = 1 ∧ clampNat 9 1 8 = 8 := by decide

theorem test_hyp_LanesAndBypass :
    ({ dly4 with mix := { dly4.mix with bypass := true } } : Dly).mix.bypass = true ∧
      ([(1#32, 2#32), (3#32, 4#32)] : List Frame).map (·.1) = ([(1#32, 5#32), (3#32, 6#32)] : List Frame).map (·.1) := by
  exact ⟨rfl, rfl⟩

/-- n = C - 1 and n = C on an empty ring of 64 slots; n = cap on an empty FIFO. -/
theorem test_hyp_RoundTrips :
    (∃ r, (withArgs bench 63 0 0 0).ring = some r ∧ r.wpos = r.rpos ∧ r.rpos < r.slots ∧ (63#32).toNat ≤ r.slots - 1) ∧
      (∃ r, (withArgs bench 64 0 0 0).ring = some r ∧ (64#32).toNat = r.slots) ∧
      (∃ f, (withArgs bench 64 0 0 0).fifo = some f ∧ f.q = [] ∧ (64#32).toNat ≤ f.cap) :=
  ⟨⟨_, rfl, rfl, by decide, by decide⟩, ⟨_, rfl, rfl⟩, _, rfl, rfl, by decide⟩

/-- Blocks of 3 and 5 samples over a ramp with 8 remaining. -/
theorem test_hyp_RampRules : (0 < 3) ∧ (0 < (⟨0, 0x3F800000#32, 8, 0x3E000000#32⟩ : Ramp).rem) ∧ 8 ≤ [3, 5].sum := by decide

theorem test_hyp_MixRules :
    newChannel.src = none ∧ ({ newChannel with src := some (.osc 0), mute := true } : Channel).mute = true ∧
      ({ newChannel with src := some (.osc 0) } : Channel).src = some (.osc 0) ∧ newChannel.mute = false := ⟨rfl, rfl, rfl, rfl⟩

theorem test_hyp_ZeroChannelSilence :
    ∃ m, at8.mixer = some m ∧ m.ch = [] ∧ InRange 0 m.master 0x3F800000#32 ∧ m.master ≠ 0x80000000#32 :=
  ⟨_, rfl, rfl, ⟨by decide, by decide⟩, by decide⟩

/-- Both sides of each magnitude the soft clip turns at. -/
theorem test_hyp_SoftClipBound :
    B32.isNaN 0x3F7FFDF5#32 = false ∧ B32.mag 0x3F7FFDF5#32 ≤ 0x3F7FFDF5 ∧ 0x3F7FFDF6 ≤ B32.mag 0xBF7FFDF6#32 ∧
      B32.mag 0x3F733333#32 ≤ 0x3F733333 ∧ B32.isNaN 0xFF800000#32 = false ∧ B32.isNaN 0x7FC00000#32 = true := by decide

/-- A request past the buffer size, one at it with finite samples, and one with a non-finite sample (a filter holding +Inf). -/
theorem test_hyp_FrameRequests :
    (at8.eng.state ≠ .uninit ∧ at8.eng.bufsz.toNat < 17 ∧ 16 ≤ at8.eng.bufsz.toNat) ∧
    (at8.mixer = some newMixer ∧ (mixGen at8 newMixer 1).1 = [(0, 0)] ∧ B32.isFinite 0 = true) ∧
    (let flt : Flt := { newFlt 8000 with hist := ⟨⟨0x7F800000#32, 0, 0, 0⟩, ⟨0, 0, 0, 0⟩⟩ }
     allFinite (fltRun flt [(0, 0)]).1 = false) := by
  refine ⟨⟨by decide, by decide, by decide⟩, ⟨rfl, by decide +kernel, by decide⟩, by decide +kernel⟩

/-! ### Commands -/

/-- A create needs an initialised engine and a lowest free slot (slot 1 here), or none (V-OSC-17). -/
theorem test_hyp_Creates :
    bench.eng.state ≠ .uninit ∧ LowestFree bench.osc 1 ∧ LowestFree bench.poly 1 ∧ LowestFree bench.env 1 ∧
      LowestFree bench.epool 1 ∧ LowestFree bench.dly 1 ∧ LowestFree bench.flt 1 ∧ LowestFree bench.rev 1 ∧
      none ∉ (List.replicate 16 (some (newOsc 8000))) ∧ early.eng.state = .uninit := by
  have z : ∀ {α : Type} (u : α) (l : List (Option α)), LowestFree (some u :: none :: l) 1 := fun u l =>
    ⟨rfl, fun j hj => ⟨u, by rw [Nat.lt_one_iff.1 hj]; rfl⟩⟩
  exact ⟨by decide, z _ _, z _ _, z _ _, z _ _, z _ _, z _ _, z _ _, by simp, rfl⟩

/-- The ends of the rates' and the parameters' ranges. -/
theorem test_hyp_EffectGeometry :
    RateOk 8000 ∧ RateOk 192000 ∧ InRange 0 0x00000000#32 0x3F800000#32 ∧ InRange 0 0x3F800000#32 0x3F800000#32 ∧
      B32.roundHalfAway (B32.mul 0x00000000#32 (B32.ofNat 8000)) ≤ 1 ∧
      1 ≤ B32.roundHalfAway (B32.mul 0x3F800000#32 (B32.ofNat 8000)) :=
  ⟨test_rate.1, test_rate.2, ⟨by decide, by decide⟩, ⟨by decide, by decide⟩, by decide +kernel, by decide +kernel⟩

/-- Every way a handle fails, for each kind a command accepts: no such kind, no such slot, a slot not allocated, another kind
(V-OSC-16, V-OSC-18, V-OSC-19, V-FX-1). -/
theorem test_hyp_bad_handles :
    (∀ k ∈ [Kind.osc, .poly, .env, .epool, .dly, .flt, .rev], BadHandle bench 0x09000000#32 [k]) ∧
    BadHandle bench 0x01000010#32 [.osc] ∧ BadHandle bench 0x01000001#32 [.osc] ∧ BadHandle bench 0x03000000#32 [.osc] ∧
    BadHandle bench 0x01000000#32 [.dly, .flt, .rev] ∧ BadHandle bench 0x04000000#32 [.osc, .poly, .env] := by
  refine ⟨fun k hk => bad ?_, bad (by decide), bad (by decide), bad (by decide), bad (by decide), bad (by decide)⟩
  revert k; decide

/-- The other operand of the oscillator's setters: a number, a NaN, every waveform code and the first past them. -/
theorem test_hyp_OscSetters :
    HandleNames (withArgs bench 0x01000000#32 0x43DC0000#32 0 0) 0x01000000#32 .osc 0 ∧ B32.isNaN 0x43DC0000#32 = false ∧
      B32.isNaN 0x7F800001#32 = true ∧ (∀ w : Wave, (BitVec.ofNat 32 (waveNumber w)).toNat = waveNumber w) ∧ 4 < (5#32).toNat :=
  ⟨(test_hyp_handles _ _ _).1.1, by decide, by decide, fun w => by cases w <;> rfl, by decide⟩

/-- Notes 0 and 127, the first past them, a note mapped and one not, on distinct note maps. -/
theorem test_hyp_PolyCommands :
    HandleNames (withArgs bench 0x02000000#32 127 127 0) 0x02000000#32 .poly 0 ∧ (127#32).toNat = (127 : Fin 128).val ∧
      (0#32).toNat = (0 : Fin 128).val ∧ 127 < (128#32).toNat ∧
      (let notes : List (Option (Fin 128)) := [some 60, none]
       NotesDistinct notes ∧ notes[0]? = some (some 60) ∧ some 61 ∉ notes) := by
  refine ⟨(test_hyp_handles _ _ _).2.1.1, rfl, rfl, by decide, fun i j n hi hj => ?_, rfl, by decide⟩
  rcases i with _ | _ | i <;> rcases j with _ | _ | j <;> simp at hi hj
  rfl

theorem test_hyp_EnvCommands :
    HandleNames (withArgs bench 0x03000000#32 0x3F800000#32 0 0) 0x03000000#32 .env 0 ∧ B32.isNaN 0x3F800000#32 = false ∧
      B32.isNaN 0xFFC00000#32 = true := ⟨(test_hyp_handles _ _ _).2.2.1.1, by decide, by decide⟩

/-- Selectors 0 to 3 and the first past them, a count at BUFSZ_MAX and past it, member 7 and the first past it. -/
theorem test_hyp_EpoolCommands :
    HandleNames (withArgs bench 0x04000000#32 3 0x3F000000#32 0) 0x04000000#32 .epool 0 ∧ B32.isNaN 0x3F000000#32 = false ∧
      (∀ k, k ≤ 3 → (BitVec.ofNat 32 k).toNat = k) ∧ 3 < (4#32).toNat ∧ (8192#32).toNat ≤ 8192 ∧ 8192 < (8193#32).toNat ∧
      (∃ p m, poolGet bench.epool 0 = some p ∧ p.member[(7#32).toNat]? = some m ∧ (7#32).toNat ≤ 7) ∧ 7 < (8#32).toNat :=
  ⟨(test_hyp_handles _ _ _).2.2.2.1.1, by decide, by decide, by decide, by decide, by decide, ⟨_, _, rfl, rfl, by decide⟩, by decide⟩

theorem test_hyp_DelayAndReverbSetters :
    HandleNames (withArgs bench 0x05000000#32 0x3F800000#32 0 0) 0x05000000#32 .dly 0 ∧
      HandleNames (withArgs bench 0x07000000#32 0x3F800000#32 0 0) 0x07000000#32 .rev 0 ∧ B32.isNaN 0x3F800000#32 = false :=
  ⟨(test_hyp_handles _ _ _).2.2.2.2.1.1, (test_hyp_handles _ _ _).2.2.2.2.2.2.1, by decide⟩

theorem test_hyp_FilterSetters :
    HandleNames (withArgs bench 0x06000000#32 2 0 0) 0x06000000#32 .flt 0 ∧
      (∀ m : FilterMode, (BitVec.ofNat 32 (modeNumber m)).toNat = modeNumber m) ∧ 2 < (3#32).toNat ∧ B32.isNaN 0#32 = false :=
  ⟨(test_hyp_handles _ _ _).2.2.2.2.2.1.1, fun m => by cases m <;> rfl, by decide, by decide⟩

/-- Flags 0 and 1 and the first past them, counts 0, 8192 and 8193, on an effect of each kind. -/
theorem test_hyp_EffectCommands :
    HandleNames (withArgs bench 0x05000000#32 1 0 0) 0x05000000#32 .dly 0 ∧
      HandleNames (withArgs bench 0x06000000#32 8192 0 0) 0x06000000#32 .flt 0 ∧
      HandleNames (withArgs bench 0x07000000#32 0 0 0) 0x07000000#32 .rev 0 ∧ (0#32).toNat = 0 ∧ (1#32).toNat = 1 ∧
      1 < (2#32).toNat ∧ (8192#32).toNat ≤ 8192 ∧ 8192 < (8193#32).toNat :=
  ⟨(test_hyp_handles _ _ _).2.2.2.2.1.1, (test_hyp_handles _ _ _).2.2.2.2.2.1.1, (test_hyp_handles _ _ _).2.2.2.2.2.2.1,
    rfl, rfl, by decide, by decide, by decide⟩

/-- A mixer with distinct ids, below and at eight channels and at the last id; a channel that is there and one that is not. -/
theorem test_hyp_ChannelMap :
    (∃ m, bench.mixer = some m ∧ m.ch.Pairwise (fun p q => p.1 ≠ q.1) ∧ m.ch.length ≠ 8 ∧ m.nextId ≠ 0xFFFFFFFF#32 ∧
      (∃ c, (0#32, c) ∈ m.ch) ∧ ∀ c, (1#32, c) ∉ m.ch) ∧
    (({ mixer02 with nextId := 0xFFFFFFFF#32 } : Mixer).nextId = 0xFFFFFFFF#32) ∧
    ((0x01000000#32 : Word) = srcHandle (.osc 0) ∧ (SrcRef.osc 0).live bench) ∧ early.mixer = none := by
  refine ⟨⟨_, rfl, by simp, by decide, by decide, ⟨_, .head _⟩, fun c h => ?_⟩, rfl, ⟨rfl, by decide, rfl⟩, rfl⟩
  have := congrArg Prod.fst (List.mem_singleton.1 h)
  exact absurd (show (1#32 : Word) = 0#32 from this) (by decide)

/-- Eight channels. -/
theorem test_hyp_ChannelMap_full :
    ((List.range 8).map (fun i => (BitVec.ofNat 32 i, newChannel))).length = 8 ∧
      ((List.range 8).map (fun i => (BitVec.ofNat 32 i, newChannel))).Pairwise (fun p q => p.1 ≠ q.1) := by
  refine ⟨rfl, ?_⟩
  decide

/-- RAMP_GIVEN 0, 1 and past them, a duration that is a NaN and one that is not, mute 0, 1 and past them. -/
theorem test_hyp_ChannelSetters :
    (∃ m c, bench.mixer = some m ∧ m.ch.Pairwise (fun p q => p.1 ≠ q.1) ∧ (0#32, c) ∈ m.ch) ∧ B32.isNaN 0x3F800000#32 = false ∧
      B32.isNaN 0x7FC00000#32 = true ∧ 1 < (2#32).toNat ∧ early.mixer = none :=
  ⟨⟨_, _, rfl, by simp, .head _⟩, by decide, by decide, by decide, rfl⟩

theorem test_hyp_Generate :
    (∃ m, (withArgs bench 8192 0 0 0).mixer = some m) ∧ (8192#32).toNat ≤ 8192 ∧ 8192 < (8193#32).toNat ∧ early.mixer = none ∧
      HandleNames (withArgs bench 0x01000000#32 8192 0 0) 0x01000000#32 .osc 0 ∧
      HandleNames (withArgs bench 0x02000000#32 0 0 0) 0x02000000#32 .poly 0 ∧
      HandleNames (withArgs bench 0x03000000#32 1 0 0) 0x03000000#32 .env 0 :=
  ⟨⟨_, rfl⟩, by decide, by decide, rfl, (test_hyp_handles _ _ _).1.1, (test_hyp_handles _ _ _).2.1.1,
    (test_hyp_handles _ _ _).2.2.1.1⟩

/-- Mapped voices and none, on Noise and on another wave. -/
theorem test_hyp_SampleSteps :
    (∀ v ∈ (newPoly 8000).voice, v.note = none) ∧ (∃ v ∈ fullPoly.voice, v.note ≠ none) ∧ fullPoly.wave ≠ .noise ∧
      ({ fullPoly with wave := .noise } : Poly).wave = .noise := by
  refine ⟨fun v hv => ?_, ⟨_, List.mem_map.2 ⟨0, List.mem_finRange 0, rfl⟩, by simp⟩, by decide, rfl⟩
  rw [List.eq_of_mem_replicate hv]; rfl

theorem test_hyp_FifoCommands :
    (∃ f, (withArgs bench 8192 0 0 0).fifo = some f) ∧ (8192#32).toNat ≤ 8192 ∧ 8192 < (8193#32).toNat ∧ early.fifo = none :=
  ⟨⟨_, rfl⟩, by decide, by decide, rfl⟩

theorem test_hyp_RingCommands :
    (∃ r, (withArgs bench 8192 0 0 0).ring = some r ∧ r.wpos < r.slots ∧ r.rpos < r.slots) ∧ (8192#32).toNat ≤ 8192 ∧
      8192 < (8193#32).toNat ∧ early.ring = none := ⟨⟨_, rfl, by decide, by decide⟩, by decide, by decide, rfl⟩

/-- The ends of each range of ENG_INIT, inside and outside. -/
theorem test_hyp_EngineInit :
    (8000 ≤ (8000#32).toNat ∧ (192000#32).toNat ≤ 192000 ∧ 1 ≤ (1#32).toNat ∧ (8192#32).toNat ≤ 8192) ∧
      ¬ 8000 ≤ (7999#32).toNat ∧ ¬ (192001#32).toNat ≤ 192000 ∧ ¬ (1#32 : Word) = 2 ∧ ¬ 1 ≤ (0#32).toNat ∧ ¬ (8193#32).toNat ≤ 8192 := by
  decide

/-- Each engine state; the device's answer is a free draw, and the two clauses on it are its two values. -/
theorem test_hyp_EngineStartStop :
    early.eng.state = .uninit ∧ bench.eng.state = .stopped ∧ running8.eng.state = .running ∧
      (Config.devOk bench.draws.devok = true ∨ Config.devOk bench.draws.devok = false) := by
  refine ⟨rfl, rfl, rfl, ?_⟩
  cases Config.devOk bench.draws.devok <;> simp

theorem test_hyp_ChainCommands :
    ((0x05000000#32 : Word) = fxHandle (.dly 0) ∧ (FxRef.dly 0).live bench ∧ FxRef.dly 0 ∈ bench.chain) ∧
      ((0x06000000#32 : Word) = fxHandle (.flt 0) ∧ (FxRef.flt 0).live bench ∧ FxRef.flt 0 ∉ bench.chain ∧ bench.chain.length ≠ 8) ∧
      (bench.chain = [] ++ FxRef.dly 0 :: [] ∧ FxRef.dly 0 ∉ ([] : List FxRef)) ∧
      ([FxRef.dly 0, .dly 1, .dly 2, .dly 3, .flt 1, .flt 2, .flt 3, .rev 0].length = 8) := by
  refine ⟨⟨rfl, ⟨by decide, rfl⟩, by decide⟩, ⟨rfl, ⟨by decide, rfl⟩, by decide, by decide⟩, ⟨rfl, by decide⟩, rfl⟩

end Sys2Proof.Tests
end

section
/-! Binary32 values: the value of a magnitude, what one rounding gives, and which values are exact (00_scope.md R9). -/

namespace Sys2Proof.B32

/-! ## A sign and a magnitude -/

/-- The integer of a sign and a magnitude: how `val`, `key` and `roundHalfAway` read a word. -/
def signed (neg : Bool) (n : Nat) : Int := if neg then -(n : Int) else n

@[simp] theorem signed_true (n : Nat) : signed true n = -(n : Int) := rfl
@[simp] theorem signed_false (n : Nat) : signed false n = n := rfl

@[simp] theorem signed_zero (s : Bool) : signed s 0 = 0 := by cases s <;> rfl

theorem val_eq_signed (x : Word) : val x = signed (sign x) (units x) := rfl
theorem key_eq_signed (x : Word) : key x = signed (sign x) (mag x) := rfl

@[simp] theorem natAbs_signed (s : Bool) (n : Nat) : (signed s n).natAbs = n := by cases s <;> simp

theorem signed_mul (s t : Bool) (m n : Nat) : signed s m * signed t n = signed (s != t) (m * n) := by
  cases s <;> cases t <;> simp

/-- A quotient's numerator carries the divisor's sign. -/
theorem signed_mul_sign (s t : Bool) (m c : Nat) {n : Nat} (hn : 0 < n) :
    signed s m * c * (signed t n).sign = signed (s != t) (m * c) := by
  have h1 : ((n : Int)).sign = 1 := Int.sign_eq_one_of_pos (Int.natCast_pos.2 hn)
  cases s <;> cases t <;> simp [h1]

theorem signed_tmod (s t : Bool) (m n : Nat) : (signed s m).tmod (signed t n) = signed s (m % n) := by
  cases s <;> cases t <;> simp [Int.neg_tmod, Int.tmod_eq_emod_of_nonneg]

/-- An integer is the signed value of its own size, under either sign when it is zero. -/
theorem signed_natAbs {s : Bool} {z : Int} (hs : z ≠ 0 → s = decide (z < 0)) : signed s z.natAbs = z := by
  by_cases hz : z = 0
  · subst hz; cases s <;> rfl
  · rcases Int.lt_or_gt_of_ne hz with h | h
    · rw [hs hz, decide_eq_true h, signed_true]; omega
    · rw [hs hz, decide_eq_false h.not_gt, signed_false]; omega

/-! ## The value of a magnitude -/

/-- The units of 2^-149 that bits [30:0] stand for. -/
def magUnits (m : Nat) : Nat := if m / 2 ^ 23 = 0 then m else (2 ^ 23 + m % 2 ^ 23) * 2 ^ (m / 2 ^ 23 - 1)

theorem units_eq (x : Word) : units x = magUnits (mag x) := rfl

@[simp] theorem magUnits_zero : magUnits 0 = 0 := rfl

/-- A 24-bit significand over an exponent field; 2^24 carries into the next binade. -/
theorem magUnits_binade {k r : Nat} (h1 : 2 ^ 23 ≤ r) (h2 : r ≤ 2 ^ 24) : magUnits (k * 2 ^ 23 + r) = r * 2 ^ k := by
  unfold magUnits
  rcases h2.eq_or_lt with rfl | hlt
  · have hd : (k * 2 ^ 23 + 2 ^ 24) / 2 ^ 23 = k + 2 := by omega
    have hm : (k * 2 ^ 23 + 2 ^ 24) % 2 ^ 23 = 0 := by omega
    rw [hd, hm, if_neg (by omega), Nat.add_sub_assoc (by decide), pow_add]
    ring
  · have hd : (k * 2 ^ 23 + r) / 2 ^ 23 = k + 1 := by omega
    have hm : (k * 2 ^ 23 + r) % 2 ^ 23 = r - 2 ^ 23 := by omega
    rw [hd, hm, if_neg (by omega), Nat.add_sub_cancel, Nat.add_sub_cancel' h1]

theorem magUnits_of_le {r : Nat} (h : r ≤ 2 ^ 24) : magUnits r = r := by
  by_cases hr : r < 2 ^ 23
  · rw [magUnits, if_pos (by omega)]
  · simpa using magUnits_binade (k := 0) (by omega) h

/-- Every magnitude past the subnormals is a significand over an exponent field. -/
theorem exists_binade {m : Nat} (h : 2 ^ 23 ≤ m) : ∃ k r, 2 ^ 23 ≤ r ∧ r < 2 ^ 24 ∧ m = k * 2 ^ 23 + r :=
  ⟨m / 2 ^ 23 - 1, 2 ^ 23 + m % 2 ^ 23, by omega, by omega, by omega⟩

theorem magUnits_strictMono : StrictMono magUnits := by
  refine strictMono_nat_of_lt_succ fun m => ?_
  by_cases hm : m < 2 ^ 23
  · rw [magUnits_of_le (by omega), magUnits_of_le (by omega)]; omega
  · obtain ⟨k, r, h1, h2, rfl⟩ := exists_binade (Nat.le_of_not_lt hm)
    rw [Nat.add_assoc, magUnits_binade h1 h2.le, magUnits_binade (by omega) h2]
    exact Nat.mul_lt_mul_of_pos_right (Nat.lt_succ_self r) (Nat.two_pow_pos k)

/-- Beside a significand of exponent `k`, a value lies on the same grid or below it. -/
theorem magUnits_grid (k m : Nat) : (∃ j, magUnits m = j * 2 ^ k) ∨ (0 < k ∧ magUnits m < 2 ^ 23 * 2 ^ k) := by
  rcases k.eq_zero_or_pos with rfl | hk
  · exact .inl ⟨magUnits m, by simp⟩
  by_cases hm : m < 2 ^ 23
  · refine .inr ⟨hk, ?_⟩
    rw [magUnits_of_le (by omega)]
    exact hm.trans_le (Nat.le_mul_of_pos_right _ (Nat.two_pow_pos k))
  · obtain ⟨l, r, h1, h2, rfl⟩ := exists_binade (Nat.le_of_not_lt hm)
    rw [magUnits_binade h1 h2.le]
    by_cases hl : k ≤ l
    · exact .inl ⟨r * 2 ^ (l - k), by rw [Nat.mul_assoc, ← pow_add, Nat.sub_add_cancel hl]⟩
    · refine .inr ⟨hk, ?_⟩
      have hp : 2 * 2 ^ l ≤ 2 ^ k := by rw [← pow_succ']; exact Nat.pow_le_pow_right (by decide) (by omega)
      calc r * 2 ^ l < 2 ^ 24 * 2 ^ l := Nat.mul_lt_mul_of_pos_right h2 (Nat.two_pow_pos l)
        _ = 2 ^ 23 * (2 * 2 ^ l) := by ring
        _ ≤ 2 ^ 23 * 2 ^ k := Nat.mul_le_mul_left _ hp

/-! ## Exact values -/

/-- A number of units that a finite binary32 value has: a 24-bit significand times a power of two in range. -/
def Representable (n : Nat) : Prop := ∃ j k, j < 2 ^ 24 ∧ k ≤ 253 ∧ n = j * 2 ^ k

theorem representable_magUnits {m : Nat} (h : m < 0x7F800000) : Representable (magUnits m) := by
  by_cases hm : m < 2 ^ 23
  · exact ⟨m, 0, by omega, by omega, by rw [magUnits_of_le (by omega), pow_zero, Nat.mul_one]⟩
  · obtain ⟨k, r, h1, h2, rfl⟩ := exists_binade (Nat.le_of_not_lt hm)
    exact ⟨r, k, h2, by omega, magUnits_binade h1 h2.le⟩

theorem Representable.exists_magUnits {n : Nat} (h : Representable n) : ∃ m, magUnits m = n := by
  obtain ⟨j, k, hj, -, rfl⟩ := h
  induction k generalizing j with
  | zero => exact ⟨j, by rw [magUnits_of_le hj.le, pow_zero, Nat.mul_one]⟩
  | succ k ih =>
    by_cases h23 : j < 2 ^ 23
    · obtain ⟨m, hm⟩ := ih (j * 2) (by omega)
      exact ⟨m, by rw [hm, pow_succ']; ring⟩
    · exact ⟨(k + 1) * 2 ^ 23 + j, magUnits_binade (by omega) hj.le⟩

theorem Representable.lt {n : Nat} (h : Representable n) : n < (2 ^ 25 - 1) * 2 ^ 252 := by
  obtain ⟨j, k, hj, hk, rfl⟩ := h
  calc j * 2 ^ k ≤ (2 ^ 24 - 1) * 2 ^ 253 := Nat.mul_le_mul (by omega) (Nat.pow_le_pow_right (by decide) hk)
    _ < (2 ^ 25 - 1) * 2 ^ 252 := by norm_num

/-- A remainder keeps the coarser operand's significand or stays below the finer one. -/
theorem Representable.mod {m n : Nat} (hm : Representable m) (hn : Representable n) (h0 : 0 < n) :
    Representable (m % n) := by
  obtain ⟨i, k, hi, hk, rfl⟩ := hm
  obtain ⟨j, l, hj, hl, rfl⟩ := hn
  rcases Nat.le_total l k with h | h
  · refine ⟨i * 2 ^ (k - l) % j, l, (Nat.mod_lt _ (Nat.pos_of_mul_pos_right h0)).trans hj, hl, ?_⟩
    rw [← Nat.mul_mod_mul_right, Nat.mul_assoc, ← pow_add, Nat.sub_add_cancel h]
  · refine ⟨i % (j * 2 ^ (l - k)), k, (Nat.mod_le _ _).trans_lt hi, hk, ?_⟩
    rw [← Nat.mul_mod_mul_right, Nat.mul_assoc, ← pow_add, Nat.sub_add_cancel h]

theorem representable_integer {n : Nat} (h : n ≤ 2 ^ 24) : Representable (n * 2 ^ 149) := by
  rcases h.eq_or_lt with rfl | h
  · exact ⟨1, 173, by decide, by decide, by norm_num⟩
  · exact ⟨n, 149, h, by decide, rfl⟩

/-! ## Rounding once -/

/-- The rounded significand of `encMag`. -/
def significand (n d : Nat) : Nat := roundNat n (d * 2 ^ drop (n / d))

theorem encMag_eq (n d : Nat) : encMag n d = min (drop (n / d) * 2 ^ 23 + significand n d) 0x7F800000 := rfl

theorem ilogBy_zero (bs : List Nat) : ilogBy bs 0 = 0 := by
  induction bs with
  | nil => rfl
  | cons b bs ih => rw [ilogBy, if_pos (Nat.two_pow_pos b), ih]

@[simp] theorem drop_zero : drop 0 = 0 := by rw [drop, ilog, ilogBy_zero]

theorem lt_two_pow_drop {q : Nat} (h : q < 2 ^ 1024) : q < 2 ^ 24 * 2 ^ drop q := by
  rcases q.eq_zero_or_pos with rfl | h0
  · exact Nat.mul_pos (by decide) (Nat.two_pow_pos _)
  · rw [← pow_add]
    exact (ilog_spec h0 h).2.trans_le (Nat.pow_le_pow_right (by decide) (by unfold drop; omega))

theorem two_pow_drop_le {q : Nat} (h : q < 2 ^ 1024) (hk : 0 < drop q) : 2 ^ 23 * 2 ^ drop q ≤ q := by
  rcases q.eq_zero_or_pos with rfl | h0
  · simp at hk
  · rw [← pow_add, show 23 + drop q = ilog q by unfold drop at *; omega]
    exact (ilog_spec h0 h).1

section Rounding

variable {n d : Nat} (hd : 0 < d) (hq : n / d < 2 ^ 1024)
include hd hq

theorem lt_scaled : n < 2 ^ 24 * (d * 2 ^ drop (n / d)) := by
  have h := (Nat.div_lt_iff_lt_mul hd).1 (lt_two_pow_drop hq)
  rwa [Nat.mul_assoc, Nat.mul_comm _ d] at h

theorem scaled_le (hk : 0 < drop (n / d)) : 2 ^ 23 * (d * 2 ^ drop (n / d)) ≤ n := by
  have h := (Nat.le_div_iff_mul_le hd).1 (two_pow_drop_le hq hk)
  rwa [Nat.mul_assoc, Nat.mul_comm _ d] at h

theorem significand_le : significand n d ≤ 2 ^ 24 := by
  have he : 0 < d * 2 ^ drop (n / d) := Nat.mul_pos hd (Nat.two_pow_pos _)
  have h := (roundNat_near n he).1
  have hl := lt_scaled hd hq
  unfold significand
  generalize d * 2 ^ drop (n / d) = e at *
  by_contra hc
  have := Nat.mul_le_mul_left (2 * e) (show 2 ^ 24 + 1 ≤ roundNat n e by omega)
  omega

theorem le_significand (hk : 0 < drop (n / d)) : 2 ^ 23 ≤ significand n d := by
  have he : 0 < d * 2 ^ drop (n / d) := Nat.mul_pos hd (Nat.two_pow_pos _)
  have h := (roundNat_near n he).2.1
  have hl := scaled_le hd hq hk
  unfold significand
  generalize d * 2 ^ drop (n / d) = e at *
  by_contra hc
  have := Nat.mul_le_mul_left (2 * e) (show roundNat n e ≤ 2 ^ 23 - 1 by omega)
  omega

theorem magUnits_significand :
    magUnits (drop (n / d) * 2 ^ 23 + significand n d) = significand n d * 2 ^ drop (n / d) := by
  rcases (drop (n / d)).eq_zero_or_pos with hk | hk
  · rw [hk, Nat.zero_mul, Nat.zero_add, pow_zero, Nat.mul_one, magUnits_of_le (significand_le hd hq)]
  · exact magUnits_binade (le_significand hd hq hk) (significand_le hd hq)

end Rounding

end Sys2Proof.B32
end

section
/-! `ofUnits` is correctly rounded: its word is `Machine.Nearest` to the exact ratio (00_scope.md R9). -/

namespace Sys2Proof.B32

/-- Among the multiples of `e`, the rounded one is nearest to `n`, and even where another is as near. -/
theorem roundNat_nearest (n : Nat) {e : Nat} (he : 0 < e) (j : Nat) :
    ((n : Int) - e * roundNat n e).natAbs ≤ ((n : Int) - e * j).natAbs ∧
      (((n : Int) - e * roundNat n e).natAbs = ((n : Int) - e * j).natAbs → j = roundNat n e ∨ roundNat n e % 2 = 0) := by
  obtain ⟨h1, h2, heven⟩ := roundNat_near n he
  generalize roundNat n e = r at *
  rw [Nat.mul_assoc] at h1 h2 heven
  rcases Nat.lt_trichotomy j r with h | rfl | h
  · have := Nat.mul_le_mul_left e (show j + 1 ≤ r from h)
    rw [Nat.mul_add, Nat.mul_one] at this
    exact ⟨by omega, fun heq => .inr (heven (by omega))⟩
  · exact ⟨le_refl _, fun _ => .inl rfl⟩
  · have := Nat.mul_le_mul_left e (show r + 1 ≤ j from h)
    rw [Nat.mul_add, Nat.mul_one] at this
    exact ⟨by omega, fun heq => .inr (heven (by omega))⟩

section Rounding

variable {n d : Nat} (hd : 0 < d) (hq : n / d < 2 ^ 1024)
include hd hq

/-- The exponent field reaches the infinities exactly from halfway past the largest finite value on. -/
theorem overflow_iff :
    0x7F800000 ≤ drop (n / d) * 2 ^ 23 + significand n d ↔ (2 ^ 25 - 1) * 2 ^ 252 * d ≤ n := by
  have hlt := lt_scaled hd hq
  have hle := scaled_le hd hq
  have hs := significand_le hd hq
  have hs' := le_significand hd hq
  obtain ⟨h1, h2, heven⟩ := roundNat_near n (Nat.mul_pos hd (Nat.two_pow_pos (drop (n / d))))
  rw [← significand] at h1 h2 heven
  generalize drop (n / d) = k at *
  generalize significand n d = r at *
  rcases Nat.lt_trichotomy k 253 with hk | rfl | hk
  · have := Nat.mul_le_mul_left d (Nat.pow_le_pow_right (n := 2) (by decide) (show k ≤ 252 by omega))
    exact ⟨fun h => by omega, fun h => by omega⟩
  · refine ⟨fun h => ?_, fun h => ?_⟩
    · have := Nat.mul_le_mul_left (2 * (d * 2 ^ 253)) (show 2 ^ 24 ≤ r by omega)
      omega
    · by_contra hc
      have := Nat.mul_le_mul_left (2 * (d * 2 ^ 253)) (show r ≤ 2 ^ 24 - 1 by omega)
      have hodd := heven (.inr (by omega))
      have := Nat.mul_le_mul_left (2 * (d * 2 ^ 253)) (show r ≤ 2 ^ 24 - 2 by omega)
      omega
  · have := Nat.mul_le_mul_left d (Nat.pow_le_pow_right (n := 2) (by decide) (show 254 ≤ k by omega))
    have h23 := hs' (by omega)
    have hbig := hle (by omega)
    exact ⟨fun _ => by omega, fun _ => by omega⟩

/-- Below the overflow threshold the encoded magnitude is finite, no magnitude is nearer to the ratio, and where another
value is as near the encoded one is even. -/
theorem encMag_nearest (hn : n < (2 ^ 25 - 1) * 2 ^ 252 * d) :
    encMag n d < 0x7F800000 ∧ ∀ m,
      ((n : Int) - d * magUnits (encMag n d)).natAbs ≤ ((n : Int) - d * magUnits m).natAbs ∧
        (((n : Int) - d * magUnits (encMag n d)).natAbs = ((n : Int) - d * magUnits m).natAbs →
          magUnits m = magUnits (encMag n d) ∨ encMag n d % 2 = 0) := by
  have hfin := (not_congr (overflow_iff hd hq)).2 hn.not_ge
  rw [encMag_eq, Nat.min_eq_left (Nat.le_of_not_le hfin), magUnits_significand hd hq]
  have he : 0 < d * 2 ^ drop (n / d) := Nat.mul_pos hd (Nat.two_pow_pos _)
  have hscale (j : Nat) : (d : Int) * ↑(j * 2 ^ drop (n / d)) = ↑(d * 2 ^ drop (n / d)) * j := by
    push_cast; ring
  have hnear := roundNat_nearest n he
  rw [← significand] at hnear
  refine ⟨by omega, fun m => ?_⟩
  rcases magUnits_grid (drop (n / d)) m with ⟨j, hj⟩ | ⟨hk, hbelow⟩
  · rw [hj, hscale, hscale]
    refine ⟨(hnear j).1, fun heq => ((hnear j).2 heq).imp (fun h => by rw [h]) fun h => by omega⟩
  · have hle := scaled_le hd hq hk
    have hlt := Nat.mul_lt_mul_of_pos_left hbelow hd
    rw [Nat.mul_left_comm] at hlt
    have hmin := (hnear (2 ^ 23)).1
    rw [hscale]
    exact ⟨by omega, fun heq => by omega⟩

end Rounding

end Sys2Proof.B32
end

section
/-! Words by their sign and magnitude, and the operations' results, one equation per kind of operands (00_scope.md R9). -/

namespace Sys2Proof.B32

open Machine (Nearest)
open Claim (QuietNaN zeroOf infinityOf)

/-! ## Words made of a sign and a magnitude -/

theorem encMag_le (n d : Nat) : encMag n d ≤ 0x7F800000 := Nat.min_le_right _ _

theorem toNat_ofUnits (s : Bool) (n d : Nat) : (ofUnits s n d).toNat = encMag n d + if s then 2 ^ 31 else 0 := by
  have := encMag_le n d
  rw [ofUnits, BitVec.toNat_ofNat, Nat.mod_eq_of_lt]
  split <;> omega

@[simp] theorem mag_ofUnits (s : Bool) (n d : Nat) : mag (ofUnits s n d) = encMag n d := by
  have := encMag_le n d
  rw [mag, toNat_ofUnits]
  split <;> omega

@[simp] theorem sign_ofUnits (s : Bool) (n d : Nat) : sign (ofUnits s n d) = s := by
  have := encMag_le n d
  rw [sign, toNat_ofUnits]
  cases s
  · simp; omega
  · simp

theorem val_ofUnits (s : Bool) (n d : Nat) : val (ofUnits s n d) = signed s (magUnits (encMag n d)) := by
  rw [val_eq_signed, units_eq, sign_ofUnits, mag_ofUnits]

theorem encMag_zero (d : Nat) : encMag 0 d = 0 := by simp [encMag, roundNat]

theorem signedZero_eq_ofUnits (s : Bool) : signedZero s = ofUnits s 0 1 := by
  rw [ofUnits, encMag_zero]; cases s <;> rfl

theorem inf_eq_ofUnits {n d : Nat} (s : Bool) (h : encMag n d = 0x7F800000) : ofUnits s n d = inf s := by
  rw [ofUnits, h]; cases s <;> rfl

theorem mag_eq_setWidth (x : Word) : mag x = (x.setWidth 31).toNat := by simp [mag]

/-- Negation keeps the magnitude (R9). -/
@[simp] theorem mag_neg (x : Word) : mag (neg x) = mag x := by
  have h : (0x80000000#32).setWidth 31 = 0#31 := by decide
  rw [mag_eq_setWidth, neg, BitVec.setWidth_xor, h, BitVec.xor_zero, mag_eq_setWidth]

/-- The absolute value keeps the magnitude (R9). -/
@[simp] theorem mag_abs (x : Word) : mag (abs x) = mag x := by
  have h : (0x7FFFFFFF#32).setWidth 31 = BitVec.allOnes 31 := by decide
  rw [mag_eq_setWidth, abs, BitVec.setWidth_and, h, BitVec.and_allOnes, mag_eq_setWidth]

@[simp] theorem isNaN_neg (x : Word) : isNaN (neg x) = isNaN x := by simp [isNaN]
@[simp] theorem isInf_neg (x : Word) : isInf (neg x) = isInf x := by simp [isInf]
@[simp] theorem isFinite_neg (x : Word) : isFinite (neg x) = isFinite x := by simp [isFinite]

theorem val_neg (x : Word) : val (neg x) = -val x := by
  rw [val_eq_signed, val_eq_signed, units_eq, units_eq, mag_neg, sign_neg]
  cases sign x <;> simp

/-- Every NaN an operation makes is quiet (R9). -/
theorem quietNaN_nan (op : Nat) (a b : Word) : QuietNaN (nan op a b) := by
  have hbits (x : Word) : x.toNat / 2 ^ 22 % 2 ^ 9 = (x.extractLsb' 22 9).toNat := by
    rw [BitVec.extractLsb'_toNat, Nat.shiftRight_eq_div_pow]
  have hones : (0x7FC00000#32).extractLsb' 22 9 = BitVec.allOnes 9 := by decide
  rw [QuietNaN, hbits, nan, BitVec.extractLsb'_or, hones, BitVec.allOnes_or, BitVec.toNat_allOnes]

/-! ## Kinds of words -/

theorem isFinite_iff {x : Word} : isFinite x = true ↔ mag x < 0x7F800000 := by simp [isFinite]

theorem isNaN_of_isFinite {x : Word} (h : isFinite x = true) : isNaN x = false := by
  simp [isFinite, isNaN] at *; omega

theorem isInf_of_isFinite {x : Word} (h : isFinite x = true) : isInf x = false := by
  simp [isFinite, isInf] at *; omega

theorem isNaN_of_isInf {x : Word} (h : isInf x = true) : isNaN x = false := by
  simp [isInf, isNaN] at *; omega

theorem mag_of_isInf {x : Word} (h : isInf x = true) : mag x = 0x7F800000 := by simpa [isInf] using h

theorem units_eq_zero {x : Word} : units x = 0 ↔ mag x = 0 := by
  rw [units_eq, ← magUnits_strictMono.injective.eq_iff (a := mag x), magUnits_zero]

@[simp] theorem natAbs_val (x : Word) : (val x).natAbs = units x := natAbs_signed _ _

theorem val_eq_zero {x : Word} : val x = 0 ↔ mag x = 0 := by
  rw [← Int.natAbs_eq_zero, natAbs_val, units_eq_zero]

theorem units_pos {x : Word} (h : val x ≠ 0) : 0 < units x := by
  rw [← natAbs_val]; exact Int.natAbs_pos.2 h

theorem representable_units {x : Word} (h : isFinite x = true) : Representable (units x) :=
  representable_magUnits (isFinite_iff.1 h)

/-! ### Sizes at which the logarithm is exact: the operands of one operation stay far below 2^1024 -/

set_option exponentiation.threshold 1100 in
theorem lt_of_threshold {n : Nat} (h : n < (2 ^ 25 - 1) * 2 ^ 252) : n < 2 ^ 1024 := h.trans (by norm_num)

set_option exponentiation.threshold 1100 in
theorem units_lt {x : Word} (h : isFinite x = true) : units x < 2 ^ 277 := (representable_units h).lt.trans (by norm_num)

set_option exponentiation.threshold 1100 in
theorem two_pow_149_lt : 2 ^ 149 < 2 ^ 277 := by norm_num

set_option exponentiation.threshold 1100 in
theorem add_lt_of_units_lt {m n : Nat} (hm : m < 2 ^ 277) (hn : n < 2 ^ 277) : m + n < 2 ^ 1024 :=
  (Nat.add_lt_add hm hn).trans (by norm_num)

set_option exponentiation.threshold 1100 in
theorem mul_lt_of_units_lt {m n : Nat} (hm : m < 2 ^ 277) (hn : n < 2 ^ 277) : m * n < 2 ^ 1024 :=
  (Nat.mul_lt_mul'' hm hn).trans (by norm_num)

/-! ## The rounded word is the nearest -/

/-- The distance between signed numbers is that of the sizes when the signs agree, their sum when not. -/
theorem natAbs_signed_sub (s t : Bool) (n d m : Nat) :
    (signed s n - d * signed t m).natAbs = if s = t then ((n : Int) - d * m).natAbs else n + d * m := by
  cases s <;> cases t <;> simp only [signed_true, signed_false, reduceCtorEq, if_true, if_false, mul_neg] <;> omega

/-- `ofUnits` rounds ±(n / d) units correctly. -/
theorem nearest_ofUnits (s : Bool) {n d : Nat} (hd : 0 < d) (hn : n < 2 ^ 1024) :
    Nearest (ofUnits s n d) (signed s n) d := by
  have hq : n / d < 2 ^ 1024 := (Nat.div_le_self n d).trans_lt hn
  rw [Nearest, natAbs_signed]
  split
  · next hbig =>
    have h0 : 0 < n := (Nat.mul_pos (by decide) hd).trans_le hbig
    have hsign : decide (signed s n < 0) = s := by
      cases s
      · exact decide_eq_false (Int.natCast_nonneg n).not_gt
      · simp [h0]
    rw [hsign, inf_eq_ofUnits s (Nat.min_eq_right ((overflow_iff hd hq).2 hbig))]
  · next hsmall =>
    obtain ⟨hfin, hmin⟩ := encMag_nearest hd hq (Nat.lt_of_not_le hsmall)
    refine ⟨isFinite_iff.2 (by simpa using hfin), fun x _ => ?_⟩
    obtain ⟨hle, heven⟩ := hmin (mag x)
    rw [val_ofUnits, natAbs_signed_sub, if_pos rfl, val_eq_signed x, natAbs_signed_sub, mag_ofUnits, units_eq]
    by_cases hs : s = sign x
    · rw [if_pos hs]
      exact ⟨hle, fun heq => (heven heq).imp_left fun h => by rw [h, hs]⟩
    · rw [if_neg hs]
      have hzero := (hmin 0).1
      rw [magUnits_zero] at hzero
      refine ⟨by omega, fun heq => ?_⟩
      have hx : d * magUnits (mag x) = 0 := by omega
      have hm : magUnits (mag x) = 0 := (Nat.mul_eq_zero.1 hx).resolve_left hd.ne'
      rw [hm, Nat.cast_zero, mul_zero] at heven
      refine (heven (by omega)).imp_left fun h => ?_
      rw [← h, hm]
      cases s <;> cases sign x <;> rfl

end Sys2Proof.B32
end

section
/-! The binary32 operations, one equation per kind of operands (00_scope.md R9), and the statement on them. -/

namespace Sys2Proof.B32

open Machine (Nearest)
open Claim (QuietNaN zeroOf infinityOf)

/-! ## NaN and infinite operands -/

section NaN

variable {a b : Word} (h : isNaN a = true ∨ isNaN b = true)
include h

theorem add_of_isNaN : add a b = nan 0 a b := by simp [add, h]

theorem mul_of_isNaN : mul a b = nan 1 a b := by simp [mul, h]

theorem div_of_isNaN : div a b = nan 2 a b := by simp [div, h]

theorem fmod_of_isNaN : fmod a b = nan 3 a b := by
  rw [fmod, if_pos]; rcases h with h | h <;> simp [h]

end NaN

section InfFinite

variable {a b : Word} (ha : isInf a = true) (hb : isFinite b = true)
include ha hb

theorem add_inf_finite : add a b = a := by
  simp [add, ha, isNaN_of_isInf ha, isNaN_of_isFinite hb, isInf_of_isFinite hb]

theorem add_finite_inf : add b a = a := by
  simp [add, ha, isNaN_of_isInf ha, isNaN_of_isFinite hb, isInf_of_isFinite hb]

theorem mul_inf_finite : mul a b = if val b = 0 then nan 1 a b else inf (sign a != sign b) := by
  simp [mul, ha, isNaN_of_isInf ha, isNaN_of_isFinite hb, mag_of_isInf ha, val_eq_zero]

theorem mul_finite_inf : mul b a = if val b = 0 then nan 1 b a else inf (sign b != sign a) := by
  simp [mul, ha, isNaN_of_isInf ha, isNaN_of_isFinite hb, mag_of_isInf ha, val_eq_zero]

theorem div_inf_finite : div a b = inf (sign a != sign b) := by
  simp [div, ha, isNaN_of_isInf ha, isNaN_of_isFinite hb, isInf_of_isFinite hb]

theorem div_finite_inf : div b a = signedZero (sign b != sign a) := by
  simp [div, ha, isNaN_of_isInf ha, isNaN_of_isFinite hb, isInf_of_isFinite hb]

theorem fmod_finite_inf : fmod b a = b := by
  simp [fmod, ha, isNaN_of_isInf ha, isNaN_of_isFinite hb, isInf_of_isFinite hb, mag_of_isInf ha]

end InfFinite

/-- An infinite dividend has no remainder. -/
theorem fmod_of_isInf {a : Word} (ha : isInf a = true) (b : Word) : fmod a b = nan 3 a b := by simp [fmod, ha]

section InfInf

variable {a b : Word} (ha : isInf a = true) (hb : isInf b = true)
include ha hb

theorem add_inf_inf : add a b = if sign a = sign b then a else nan 0 a b := by
  simp [add, ha, hb, isNaN_of_isInf ha, isNaN_of_isInf hb, ite_not]

theorem mul_inf_inf : mul a b = inf (sign a != sign b) := by
  simp [mul, ha, isNaN_of_isInf ha, isNaN_of_isInf hb, mag_of_isInf ha, mag_of_isInf hb]

theorem div_inf_inf : div a b = nan 2 a b := by
  simp [div, ha, hb, isNaN_of_isInf ha, isNaN_of_isInf hb]

end InfInf

/-! ## Finite operands -/

section Finite

variable {a b : Word} (ha : isFinite a = true) (hb : isFinite b = true)
include ha hb

theorem add_of_finite :
    add a b = if val a + val b = 0 then signedZero (sign a && sign b)
      else ofUnits (decide (val a + val b < 0)) (val a + val b).natAbs 1 := by
  simp [add, isNaN_of_isFinite ha, isNaN_of_isFinite hb, isInf_of_isFinite ha, isInf_of_isFinite hb]

theorem mul_of_finite : mul a b = ofUnits (sign a != sign b) (units a * units b) (2 ^ 149) := by
  simp [mul, isNaN_of_isFinite ha, isNaN_of_isFinite hb, isInf_of_isFinite ha, isInf_of_isFinite hb]

theorem div_of_finite (h : val b ≠ 0) : div a b = ofUnits (sign a != sign b) (units a * 2 ^ 149) (units b) := by
  simp [div, isNaN_of_isFinite ha, isNaN_of_isFinite hb, isInf_of_isFinite ha, isInf_of_isFinite hb, mt val_eq_zero.2 h]

theorem div_zero_of_finite (h : val b = 0) :
    div a b = if val a = 0 then nan 2 a b else inf (sign a != sign b) := by
  simp [div, isNaN_of_isFinite ha, isNaN_of_isFinite hb, isInf_of_isFinite ha, isInf_of_isFinite hb, val_eq_zero,
    val_eq_zero.1 h]

theorem fmod_of_finite (h : val b ≠ 0) : fmod a b = ofUnits (sign a) (units a % units b) 1 := by
  simp [fmod, isNaN_of_isFinite ha, isNaN_of_isFinite hb, isInf_of_isFinite ha, isInf_of_isFinite hb, mt val_eq_zero.2 h]

/-- A sum is rounded once (R9). -/
theorem nearest_add : Nearest (add a b) (val a + val b) 1 := by
  have hlt : (val a + val b).natAbs < 2 ^ 1024 := by
    have h := Int.natAbs_add_le (val a) (val b)
    rw [natAbs_val, natAbs_val] at h
    exact h.trans_lt (add_lt_of_units_lt (units_lt ha) (units_lt hb))
  rw [add_of_finite ha hb]
  split
  · next h0 =>
    rw [h0, signedZero_eq_ofUnits]
    simpa using nearest_ofUnits (sign a && sign b) Nat.one_pos (lt_of_threshold (n := 0) (by decide))
  · next h0 =>
    have h := nearest_ofUnits (decide (val a + val b < 0)) Nat.one_pos hlt
    rwa [signed_natAbs fun _ => rfl] at h

/-- A product is rounded once (R9). -/
theorem nearest_mul : Nearest (mul a b) (val a * val b) (2 ^ 149) := by
  rw [mul_of_finite ha hb, val_eq_signed, val_eq_signed, signed_mul]
  exact nearest_ofUnits _ (by decide) (mul_lt_of_units_lt (units_lt ha) (units_lt hb))

/-- A quotient by a nonzero value is rounded once (R9). -/
theorem nearest_div (h : val b ≠ 0) : Nearest (div a b) (val a * 2 ^ 149 * (val b).sign) (val b).natAbs := by
  have hnum := signed_mul_sign (sign a) (sign b) (units a) (2 ^ 149) (units_pos h)
  rw [Nat.cast_pow, Nat.cast_ofNat, ← val_eq_signed, ← val_eq_signed] at hnum
  rw [div_of_finite ha hb h, hnum, natAbs_val]
  exact nearest_ofUnits _ (units_pos h) (mul_lt_of_units_lt (units_lt ha) two_pow_149_lt)

end Finite

/-- Rounding a representable number of units changes nothing. -/
theorem ofUnits_exact (s : Bool) {n : Nat} (h : Representable n) :
    isFinite (ofUnits s n 1) = true ∧ val (ofUnits s n 1) = signed s n := by
  obtain ⟨hfin, hmin⟩ := encMag_nearest Nat.one_pos ((Nat.div_le_self n 1).trans_lt (lt_of_threshold h.lt)) (by simpa using h.lt)
  obtain ⟨m, hm⟩ := h.exists_magUnits
  have hzero := (hmin m).1
  rw [hm] at hzero
  have heq : magUnits (encMag n 1) = n := by omega
  exact ⟨isFinite_iff.2 (by simpa using hfin), by rw [val_ofUnits, heq]⟩

/-- The remainder is exact and truncates: it has the sign of the first operand (R9). -/
theorem fmod_exact {a b : Word} (ha : isFinite a = true) (hb : isFinite b = true) (h : val b ≠ 0) :
    isFinite (fmod a b) = true ∧ val (fmod a b) = (val a).tmod (val b) ∧ sign (fmod a b) = sign a := by
  obtain ⟨hfin, hval⟩ :=
    ofUnits_exact (sign a) ((representable_units ha).mod (representable_units hb) (units_pos h))
  rw [fmod_of_finite ha hb h]
  exact ⟨hfin, by rw [hval, val_eq_signed a, val_eq_signed b, signed_tmod], sign_ofUnits _ _ _⟩

theorem fmod_zero {a b : Word} (h : val b = 0) : fmod a b = nan 3 a b := by simp [fmod, val_eq_zero.1 h]

/-! ## The statement's clauses -/

theorem nearest_sub {a b : Word} (ha : isFinite a = true) (hb : isFinite b = true) :
    Nearest (sub a b) (val a - val b) 1 := by
  rw [Int.sub_eq_add_neg, ← val_neg]
  exact nearest_add ha (by simpa using hb)

/-- An exact zero sum is +0.0 unless both operands are negative. -/
theorem add_eq_zeroOf {a b : Word} (ha : isFinite a = true) (hb : isFinite b = true) (h : val a + val b = 0) :
    add a b = zeroOf (sign a && sign b) := by rw [add_of_finite ha hb, if_pos h]; rfl

theorem sub_eq_zeroOf {a b : Word} (ha : isFinite a = true) (hb : isFinite b = true) (h : val a - val b = 0) :
    sub a b = zeroOf (sign a && !sign b) := by
  rw [← sign_neg]
  exact add_eq_zeroOf ha (by simpa using hb) (by rw [val_neg]; exact h)

/-- With a NaN operand every operation gives a quiet NaN (R9). -/
theorem quietNaN_of_isNaN {a b : Word} (h : isNaN a = true ∨ isNaN b = true) :
    ∀ r ∈ [add a b, sub a b, mul a b, div a b, fmod a b], QuietNaN r := by
  have hs : isNaN a = true ∨ isNaN (neg b) = true := by simpa using h
  rw [sub, add_of_isNaN h, add_of_isNaN hs, mul_of_isNaN h, div_of_isNaN h, fmod_of_isNaN h]
  simp only [List.forall_mem_cons, quietNaN_nan, true_and]
  exact List.forall_mem_nil _

end Sys2Proof.B32

namespace Sys2Proof

open B32 Machine Claim

/-- Settles O22: every rounded result is an `ofUnits`, correctly rounded by `nearest_ofUnits`; the remainder is representable,
so its rounding is exact; the other operands are the branches of each operation. -/
theorem arithmeticIsCorrectlyRounded : Obligations.ArithmeticIsCorrectlyRounded := by
  unfold Obligations.ArithmeticIsCorrectlyRounded
  refine ⟨fun a b ha hb => ?finite, fun a b h => quietNaN_of_isNaN h, fun a b ha hb => ?infFinite, fun a b ha hb => ?infInf,
    fun x => ⟨mag_abs x, sign_abs x, mag_neg x, sign_neg x⟩⟩
  case finite =>
    refine ⟨nearest_add ha hb, nearest_sub ha hb, nearest_mul ha hb, fun h => ⟨nearest_div ha hb h, fmod_exact ha hb h⟩,
      add_eq_zeroOf ha hb, sub_eq_zeroOf ha hb, ?_, fun h => ?_, fun h ha0 => ?_, fun h => ⟨fun ha0 => ?_, ?_⟩⟩
    · rw [mul_of_finite ha hb, sign_ofUnits]
    · rw [div_of_finite ha hb h, sign_ofUnits]
    · rw [div_zero_of_finite ha hb h, if_neg ha0]; rfl
    · rw [div_zero_of_finite ha hb h, if_pos ha0]; exact quietNaN_nan 2 a b
    · rw [fmod_zero h]; exact quietNaN_nan 3 a b
  case infFinite =>
    have hna : isInf (neg a) = true := by simpa using ha
    have hnb : isFinite (neg b) = true := by simpa using hb
    refine ⟨add_inf_finite ha hb, add_finite_inf ha hb, add_inf_finite ha hnb, add_finite_inf hna hb,
      fun h => ⟨?_, ?_⟩, fun h => ⟨?_, ?_⟩, div_inf_finite ha hb, ?_, ?_, fmod_finite_inf ha hb⟩
    · rw [mul_inf_finite ha hb, if_pos h]; exact quietNaN_nan 1 a b
    · rw [mul_finite_inf ha hb, if_pos h]; exact quietNaN_nan 1 b a
    · rw [mul_inf_finite ha hb, if_neg h]; rfl
    · rw [mul_finite_inf ha hb, if_neg h, bne_comm]; rfl
    · rw [div_finite_inf ha hb, bne_comm]; rfl
    · rw [fmod_of_isInf ha]; exact quietNaN_nan 3 a b
  case infInf =>
    have hnb : isInf (neg b) = true := by simpa using hb
    refine ⟨fun h => ⟨?_, ?_⟩, fun h => ⟨?_, ?_⟩, mul_inf_inf ha hb, ?_, ?_⟩
    · rw [add_inf_inf ha hb, if_pos h]
    · rw [sub, add_inf_inf ha hnb, sign_neg, if_neg (by simp [h])]; exact quietNaN_nan 0 a (neg b)
    · rw [add_inf_inf ha hb, if_neg h]; exact quietNaN_nan 0 a b
    · rw [sub, add_inf_inf ha hnb, sign_neg, if_pos (Bool.eq_not_of_ne h)]
    · rw [div_inf_inf ha hb]; exact quietNaN_nan 2 a b
    · rw [fmod_of_isInf ha]; exact quietNaN_nan 3 a b

end Sys2Proof
end

section
/-! Conversions, comparisons, clamping, counters and draws (00_scope.md R9, R10, R13, R15), and the statements on them. -/

namespace Sys2Proof.B32

open Claim (infinityOf)

/-! ## Conversions -/

/-- `f32(k)` is exact up to 2^24 (R9). -/
theorem ofInt_exact {k : Int} (h : k.natAbs ≤ 2 ^ 24) :
    isFinite (ofInt k) = true ∧ val (ofInt k) = k * 2 ^ 149 := by
  obtain ⟨hfin, hval⟩ := ofUnits_exact (decide (k < 0)) (representable_integer h)
  refine ⟨hfin, hval.trans ?_⟩
  have hk : signed (decide (k < 0)) k.natAbs = k := signed_natAbs fun _ => rfl
  have := signed_mul (decide (k < 0)) false k.natAbs (2 ^ 149)
  rw [hk] at this
  simpa using this.symm

theorem ofNat_exact {k : Nat} (h : k ≤ 2 ^ 24) :
    isFinite (ofNat k) = true ∧ val (ofNat k) = k * 2 ^ 149 := by
  obtain ⟨hfin, hval⟩ := ofUnits_exact false (representable_integer h)
  exact ⟨hfin, hval.trans (by rw [signed_false]; push_cast; rfl)⟩

theorem roundHalfAway_eq_signed (x : Word) :
    roundHalfAway x = signed (sign x) ((2 * units x + 2 ^ 149) / 2 ^ 150) := rfl

theorem floor_le_val (x : Word) : floor x * 2 ^ 149 ≤ val x := Int.ediv_mul_le _ (by decide)

theorem val_lt_floor_add_one (x : Word) : val x < (floor x + 1) * 2 ^ 149 := Int.lt_ediv_add_one_mul_self _ (by decide)

/-- `roundHalfAway` is at most half a unit off, and larger in size on a tie (R10). -/
theorem roundHalfAway_near (x : Word) :
    2 * (roundHalfAway x * 2 ^ 149 - val x).natAbs ≤ 2 ^ 149 ∧
      (2 * (roundHalfAway x * 2 ^ 149 - val x).natAbs = 2 ^ 149 → (val x).natAbs < (roundHalfAway x * 2 ^ 149).natAbs) := by
  rw [roundHalfAway_eq_signed, val_eq_signed]
  cases sign x
  · rw [signed_false, signed_false]; omega
  · rw [signed_true, signed_true]; omega

/-- A word that holds a count exactly gives the count back, floored or rounded. -/
theorem toCount {x : Word} {k : Nat} (h : val x = k * 2 ^ 149) : roundHalfAway x = k ∧ floor x = k := by
  have hround := (roundHalfAway_near x).1
  rw [h] at hround
  exact ⟨by omega, by rw [floor, h, Int.mul_ediv_cancel _ (by decide)]⟩

/-! ## Comparisons -/

/-- Signed numbers are ordered as their sizes are, through any order-preserving change of scale. -/
theorem signed_lt_signed_iff {f : Nat → Nat} (hf : StrictMono f) (h0 : f 0 = 0) (s t : Bool) (m n : Nat) :
    signed s (f m) < signed t (f n) ↔ signed s m < signed t n := by
  have hmn := hf.lt_iff_lt (a := m) (b := n)
  have hnm := hf.lt_iff_lt (a := n) (b := m)
  have hm := hf.lt_iff_lt (a := 0) (b := m)
  have hn := hf.lt_iff_lt (a := 0) (b := n)
  cases s <;> cases t <;> simp only [signed_true, signed_false] <;> omega

/-- The bit patterns' order is the order of the values (R9). -/
theorem key_lt_key_iff (a b : Word) : key a < key b ↔ val a < val b :=
  (signed_lt_signed_iff magUnits_strictMono magUnits_zero (sign a) (sign b) (mag a) (mag b)).symm

theorem key_le_key_iff (a b : Word) : key a ≤ key b ↔ val a ≤ val b := by
  rw [← not_lt, ← not_lt, key_lt_key_iff]

theorem lt_of_isNaN {a b : Word} (h : isNaN a = true ∨ isNaN b = true) : lt a b = false := by
  rcases h with h | h <;> simp [lt, h]

theorem le_of_isNaN {a b : Word} (h : isNaN a = true ∨ isNaN b = true) : le a b = false := by
  rcases h with h | h <;> simp [le, h]

section Finite

variable {a b : Word} (ha : isFinite a = true) (hb : isFinite b = true)
include ha

/-- An infinity is beyond every finite value. -/
theorem key_bounds : -0x7F800000 < key a ∧ key a < 0x7F800000 := by
  have hm := isFinite_iff.1 ha
  rw [key_eq_signed]
  cases sign a
  · rw [signed_false]; omega
  · rw [signed_true]; omega

theorem lt_inf : lt a (inf false) = true := lt_iff.2 ⟨isNaN_of_isFinite ha, rfl, (key_bounds ha).2⟩

theorem inf_lt : lt (inf true) a = true := lt_iff.2 ⟨rfl, isNaN_of_isFinite ha, (key_bounds ha).1⟩

theorem not_inf_lt : lt (inf false) a = false := by
  rw [← Bool.not_eq_true, lt_iff]; exact fun ⟨_, _, hlt⟩ => (key_bounds ha).2.not_gt hlt

include hb

theorem lt_iff_val : lt a b = true ↔ val a < val b := by
  simp [lt_iff, isNaN_of_isFinite ha, isNaN_of_isFinite hb, key_lt_key_iff]

theorem le_iff_val : le a b = true ↔ val a ≤ val b := by
  simp [le_iff, isNaN_of_isFinite ha, isNaN_of_isFinite hb, key_le_key_iff]

end Finite

/-! ## Clamping -/

section Clamp

variable {v lo hi : Word}

theorem clamp_of_lt (h : lt v lo = true) : clamp v lo hi = lo := if_pos h

theorem clamp_of_gt (h : lt v lo = false) (h' : lt hi v = true) : clamp v lo hi = hi := by simp [clamp, h, h']

theorem clamp_of_between (h : lt v lo = false) (h' : lt hi v = false) : clamp v lo hi = v := by simp [clamp, h, h']

theorem lt_eq_false_of_le_val (hl : isFinite lo = true) (hv : isFinite v = true) (h : val lo ≤ val v) : lt v lo = false := by
  rw [← Bool.not_eq_true, lt_iff_val hv hl]; exact h.not_gt

/-- A finite value is clamped by the order of the values (R10). -/
theorem clamp_finite (hl : isFinite lo = true) (hh : isFinite hi = true) (hle : val lo ≤ val hi)
    (hv : isFinite v = true) :
    (val v < val lo → clamp v lo hi = lo) ∧ (val hi < val v → clamp v lo hi = hi) ∧
      (val lo ≤ val v → val v ≤ val hi → clamp v lo hi = v) :=
  ⟨fun h => clamp_of_lt ((lt_iff_val hv hl).2 h),
    fun h => clamp_of_gt (lt_eq_false_of_le_val hl hv (hle.trans h.le)) ((lt_iff_val hh hv).2 h),
    fun h h' => clamp_of_between (lt_eq_false_of_le_val hl hv h) (lt_eq_false_of_le_val hv hh h')⟩

end Clamp

end Sys2Proof.B32

namespace Sys2Proof.Machine

/-- The counter adds 1 and stays at its largest value (R15). -/
theorem satInc_toNat (c : Word) : (satInc c).toNat = min (c.toNat + 1) 0xFFFFFFFF := by
  unfold satInc
  split
  · next h => subst h; rfl
  · next h => bv_omega

end Sys2Proof.Machine

namespace Sys2Proof

open B32 Machine Claim

/-- Settles O23: integers up to 2^24 are representable, and the order of the bit patterns is that of the values. -/
theorem integerConversions : Obligations.IntegerConversions := by
  unfold Obligations.IntegerConversions
  refine ⟨fun k hk => ?_, fun x _ => ⟨floor_le_val x, val_lt_floor_add_one x, roundHalfAway_near x⟩,
    fun note => ofInt_exact (by omega),
    fun a b => ⟨fun h => ⟨lt_of_isNaN h, le_of_isNaN h⟩, fun ha hb => ⟨lt_iff_val ha hb, le_iff_val ha hb⟩,
      fun ha => ⟨lt_inf ha, inf_lt ha⟩⟩,
    fun v lo hi hl hh hle => ⟨clamp_finite hl hh hle, clamp_of_gt (not_inf_lt hl) (lt_inf hh), clamp_of_lt (inf_lt hl)⟩,
    by decide, satInc_toNat⟩
  obtain ⟨hfin, hval⟩ := ofNat_exact hk
  exact ⟨hfin, hval, toCount hval⟩

/-- A draw outside the oracle's set is replaced by +0.0, which lies in both sets (R13). -/
theorem noiseDraw_inRange (k : Nat) : InRange 0xBF800000#32 (noiseDraw k) 0x3F800000#32 := by
  unfold noiseDraw
  split
  · next h => exact (Bool.and_eq_true _ _).mp h
  · exact ⟨by decide, by decide⟩

theorem le_cpuLoadDraw (k : Nat) : B32.le 0 (cpuLoadDraw k) = true := by
  unfold cpuLoadDraw
  split
  · next h => exact h
  · decide

/-- Settles O24: each draw is taken as it is when it lies in the oracle's set, else it is +0.0, which does. -/
theorem drawsInRange : Obligations.DrawsInRange := by
  unfold Obligations.DrawsInRange
  intro k
  obtain ⟨-, hnan, -⟩ := le_iff.1 (le_cpuLoadDraw k)
  exact ⟨noiseDraw_inRange k, fun h => if_pos ((Bool.and_eq_true _ _).mpr h), le_cpuLoadDraw k, hnan, fun h => if_pos h⟩

end Sys2Proof
end

section
/-! Bounds on rounded results: rounding passes no binary32 value that the exact result does not pass (00_scope.md R9). -/

namespace Sys2Proof.B32

open Machine (Nearest InRange)

/-! ## Ranges of finite words, by value -/

/-- `x` is finite and its value lies between those of `lo` and `hi`. -/
def Between (lo x hi : Word) : Prop := isFinite x = true ∧ val lo ≤ val x ∧ val x ≤ val hi

theorem isFinite_of_key {lo x hi : Word} (hl : isFinite lo = true) (hh : isFinite hi = true)
    (h1 : key lo ≤ key x) (h2 : key x ≤ key hi) : isFinite x = true := by
  have hlo := (key_bounds hl).1
  have hhi := (key_bounds hh).2
  rw [key_eq_signed x] at h1 h2
  rw [isFinite_iff]
  cases hs : sign x <;> rw [hs] at h1 h2 <;> simp only [signed_true, signed_false] at h1 h2 <;> omega

/-- Between finite bounds the order of the words is the order of the values. -/
theorem inRange_iff {lo x hi : Word} (hl : isFinite lo = true) (hh : isFinite hi = true) :
    InRange lo x hi ↔ Between lo x hi := by
  constructor
  · rintro ⟨h1, h2⟩
    have hx := isFinite_of_key hl hh (le_iff.1 h1).2.2 (le_iff.1 h2).2.2
    exact ⟨hx, (le_iff_val hl hx).1 h1, (le_iff_val hx hh).1 h2⟩
  · rintro ⟨hx, h1, h2⟩
    exact ⟨(le_iff_val hl hx).2 h1, (le_iff_val hx hh).2 h2⟩

/-! ## Rounding stays between representable bounds -/

theorem natAbs_val_lt {x : Word} (hx : isFinite x = true) : (val x).natAbs < (2 ^ 25 - 1) * 2 ^ 252 := by
  rw [natAbs_val]; exact (representable_units hx).lt

/-- A ratio between two finite values rounds to a value between them. -/
theorem between_of_nearest {r lo hi : Word} {num : Int} {den : Nat} (h : Nearest r num den) (hd : 0 < den)
    (hl : isFinite lo = true) (hh : isFinite hi = true) (h1 : den * val lo ≤ num) (h2 : num ≤ den * val hi) :
    Between lo r hi := by
  have hnum : ¬ (2 ^ 25 - 1) * 2 ^ 252 * den ≤ num.natAbs := by
    have hlo := Nat.mul_lt_mul_of_pos_right (natAbs_val_lt hl) hd
    have hhi := Nat.mul_lt_mul_of_pos_right (natAbs_val_lt hh) hd
    have e1 : ((den : Int) * val lo).natAbs = (val lo).natAbs * den := by rw [Int.natAbs_mul, Int.natAbs_natCast, Nat.mul_comm]
    have e2 : ((den : Int) * val hi).natAbs = (val hi).natAbs * den := by rw [Int.natAbs_mul, Int.natAbs_natCast, Nat.mul_comm]
    omega
  rw [Nearest, if_neg hnum] at h
  obtain ⟨hfin, hmin⟩ := h
  refine ⟨hfin, ?_, ?_⟩
  · by_contra hc
    have hlt : (den : Int) * val r < den * val lo := Int.mul_lt_mul_of_pos_left (by omega) (by exact_mod_cast hd)
    have := (hmin lo hl).1
    omega
  · by_contra hc
    have hlt : (den : Int) * val hi < den * val r := Int.mul_lt_mul_of_pos_left (by omega) (by exact_mod_cast hd)
    have := (hmin hi hh).1
    omega

section Finite

variable {a b lo hi : Word} (ha : isFinite a = true) (hb : isFinite b = true) (hl : isFinite lo = true)
  (hh : isFinite hi = true)
include ha hb hl hh

theorem add_between (h1 : val lo ≤ val a + val b) (h2 : val a + val b ≤ val hi) : Between lo (add a b) hi :=
  between_of_nearest (nearest_add ha hb) Nat.one_pos hl hh (by simpa using h1) (by simpa using h2)

theorem sub_between (h1 : val lo ≤ val a - val b) (h2 : val a - val b ≤ val hi) : Between lo (sub a b) hi :=
  between_of_nearest (nearest_sub ha hb) Nat.one_pos hl hh (by simpa using h1) (by simpa using h2)

theorem mul_between (h1 : 2 ^ 149 * val lo ≤ val a * val b) (h2 : val a * val b ≤ 2 ^ 149 * val hi) :
    Between lo (mul a b) hi :=
  between_of_nearest (nearest_mul ha hb) (by decide) hl hh (by simpa using h1) (by simpa using h2)

theorem div_between (hpos : 0 < val b) (h1 : val b * val lo ≤ val a * 2 ^ 149) (h2 : val a * 2 ^ 149 ≤ val b * val hi) :
    Between lo (div a b) hi := by
  have h := nearest_div ha hb hpos.ne'
  rw [Int.sign_eq_one_of_pos hpos, mul_one] at h
  have hden : ((val b).natAbs : Int) = val b := Int.natAbs_of_nonneg hpos.le
  exact between_of_nearest h (by omega) hl hh (by rwa [hden]) (by rwa [hden])

end Finite

/-! ## Words that are no NaN -/

theorem isNaN_ofUnits (s : Bool) (n d : Nat) : isNaN (ofUnits s n d) = false := by
  have := encMag_le n d
  simp only [isNaN, mag_ofUnits, decide_eq_false_iff_not]; omega

theorem isNaN_inf (s : Bool) : isNaN (inf s) = false := by cases s <;> rfl

/-- A product with a finite nonzero factor is a NaN only when the other factor is. -/
theorem isNaN_mul {a b : Word} (ha : isFinite a = true) (h0 : val a ≠ 0) (hb : isNaN b = false) :
    isNaN (mul a b) = false := by
  cases hf : isFinite b
  · have hi : isInf b = true := by simp [isFinite, isNaN, isInf] at hf hb ⊢; omega
    rw [mul_finite_inf hi ha, if_neg h0, isNaN_inf]
  · rw [mul_of_finite ha hf, isNaN_ofUnits]

/-- The power of two is a NaN only of a NaN (R11). -/
theorem isNaN_exp2 {x : Word} (hx : isNaN x = false) : isNaN (Elem.exp2_32 x) = false := by
  unfold Elem.exp2_32
  rw [if_neg (by simp [hx])]
  split
  · rfl
  · split
    · rfl
    · exact isNaN_ofUnits _ _ _

end Sys2Proof.B32
end

section
/-! The arithmetic behind the records: phases and increments (41_oscillator.md R301-R303), envelope rates and levels
(42_envelope.md R350, R351), line lengths and distances (43_effects.md R402, R413). -/

namespace Sys2Proof.Machine

open B32

/-! ## Sample rates -/

theorem RateOk.bounds {sr : Word} (h : RateOk sr) : 8000 ≤ sr.toNat ∧ sr.toNat ≤ 192000 := h

/-- A sample rate is an exact binary32 value (R5, R9). -/
theorem RateOk.exact {sr : Word} (h : RateOk sr) :
    isFinite (B32.ofNat sr.toNat) = true ∧ val (B32.ofNat sr.toNat) = sr.toNat * 2 ^ 149 :=
  ofNat_exact (by have := h.bounds; omega)

/-! ## Phases -/

/-- An increment of a legal frequency is at least 0 and below 32. -/
theorem phaseInc_between {f sr : Word} (hf : InRange Config.fMin f Config.fMax) (hsr : RateOk sr) :
    Between B32.zero (phaseInc f sr) 0x42000000#32 := by
  obtain ⟨ff, hlo, hhi⟩ := (inRange_iff (by decide) (by decide)).1 hf
  obtain ⟨fs, hs⟩ := hsr.exact
  have hr := hsr.bounds
  have e1 : val Config.fMin = 20 * 2 ^ 149 := by decide
  have e2 : val Config.fMax = 20000 * 2 ^ 149 := by decide
  have e3 : val Config.twoPi = 13176795 * 2 ^ 128 := by decide
  have e4 : val (0x48000000#32) = 2 ^ 166 := by decide
  have e5 : val (0x42000000#32) = 2 ^ 154 := by decide
  have e0 : val B32.zero = 0 := by decide
  obtain ⟨fm, hm0, hm1⟩ : Between B32.zero (mul Config.twoPi f) 0x48000000#32 :=
    mul_between (by decide) ff (by decide) (by decide) (by rw [e0, e3]; omega) (by rw [e3, e4]; omega)
  exact div_between fm fs (by decide) (by decide) (by omega) (by rw [e0]; omega) (by rw [hs, e5]; omega)

theorem phaseOk_iff {p : Word} : PhaseOk p ↔ isFinite p = true ∧ 0 ≤ val p ∧ val p < val Config.twoPi := by
  have hz : isFinite B32.zero = true := by decide
  have ht : isFinite Config.twoPi = true := by decide
  constructor
  · rintro ⟨h1, h2⟩
    have hp := isFinite_of_key hz ht (le_iff.1 h1).2.2 (le_of_lt (lt_iff.1 h2).2.2)
    exact ⟨hp, (le_iff_val hz hp).1 h1, (lt_iff_val hp ht).1 h2⟩
  · rintro ⟨hp, h1, h2⟩
    exact ⟨(le_iff_val hz hp).2 h1, (lt_iff_val hp ht).2 h2⟩

/-- The phase after a sample lies in [0, TWO_PI) again (R303). -/
theorem phaseOk_phaseNext {p inc : Word} (hp : PhaseOk p) (hi : Between B32.zero inc 0x42000000#32) :
    PhaseOk (phaseNext p inc) := by
  obtain ⟨fp, hp0, hp1⟩ := phaseOk_iff.1 hp
  obtain ⟨fi, hi0, hi1⟩ := hi
  have ht : val Config.twoPi = 13176795 * 2 ^ 128 := by decide
  have e0 : val B32.zero = 0 := by decide
  have e5 : val (0x42000000#32) = 2 ^ 154 := by decide
  have e6 : val (0x42800000#32) = 2 ^ 155 := by decide
  obtain ⟨fs, hs0, -⟩ : Between B32.zero (add p inc) 0x42800000#32 :=
    add_between fp fi (by decide) (by decide) (by omega) (by omega)
  obtain ⟨ff, hv, -⟩ := fmod_exact fs (by decide : isFinite Config.twoPi = true) (by decide)
  rw [Int.tmod_eq_emod_of_nonneg (by omega)] at hv
  have hpos : 0 < val Config.twoPi := by decide
  exact phaseOk_iff.2 ⟨ff, hv ▸ Int.emod_nonneg _ hpos.ne', hv ▸ Int.emod_lt_of_pos _ hpos⟩

/-! ## Notes -/

/-- A part of a whole lies in [0, 1]. -/
theorem div_part_between {a b : Word} (ha : isFinite a = true) (hb : isFinite b = true) (h0 : 0 ≤ val a)
    (hle : val a ≤ val b) (hpos : 0 < val b) : Between B32.zero (div a b) B32.one := by
  have e0 : val B32.zero = 0 := by decide
  have e1 : val B32.one = 2 ^ 149 := by decide
  exact div_between ha hb (by decide) (by decide) hpos (by rw [e0]; omega) (by rw [e1]; omega)

/-- A note's frequency is no NaN, so the clamp brings it into the range (R309, R312). -/
theorem isNaN_midiFreq {note : Nat} (h : note < 128) : isNaN (midiFreq note) = false := by
  obtain ⟨fi, -⟩ := ofInt_exact (k := (note : Int) - Config.midiRefNote) (by simp only [Config.midiRefNote]; omega)
  refine isNaN_mul (by decide) (by decide) (isNaN_exp2 ?_)
  rw [div_of_finite fi (by decide) (by decide), isNaN_ofUnits]

/-- An amplitude from a velocity lies in [0, 1] (R312). -/
theorem velocity_inRange (w : Word) :
    InRange B32.zero (B32.div (B32.ofNat (argVel w)) Config.velocityScale) B32.one := by
  have hv : argVel w ≤ 127 := Nat.min_le_right _ _
  obtain ⟨fv, ev⟩ := ofNat_exact (k := argVel w) (by omega)
  have e2 : val Config.velocityScale = 127 * 2 ^ 149 := by decide
  exact (inRange_iff (by decide) (by decide)).2
    (div_part_between fv (by decide) (by omega) (by omega) (by decide))

/-! ## Envelope rates and levels -/

/-- A time of the range, in samples, lies in [1, 2^20]. -/
theorem envSamples_between {t sr : Word} (ht : InRange Config.envTMin t Config.envTMax) (hsr : RateOk sr) :
    Between B32.one (mul t (B32.ofNat sr.toNat)) 0x49800000#32 := by
  obtain ⟨ft, hlo, hhi⟩ := (inRange_iff (by decide) (by decide)).1 ht
  obtain ⟨fs, hs⟩ := hsr.exact
  have hr := hsr.bounds
  have e1 : val Config.envTMin = 8589935 * 2 ^ 116 := by decide
  have e2 : val Config.envTMax = 5 * 2 ^ 149 := by decide
  have e3 : val B32.one = 2 ^ 149 := by decide
  have e4 : val (0x49800000#32) = 2 ^ 169 := by decide
  refine mul_between ft fs (by decide) (by decide) ?_ ?_
  · rw [hs, e3]
    calc (2 : Int) ^ 149 * 2 ^ 149 ≤ 8589935 * 2 ^ 116 * (8000 * 2 ^ 149) := by norm_num
      _ ≤ val t * (sr.toNat * 2 ^ 149) := Int.mul_le_mul (by omega) (by omega) (by norm_num) (by omega)
  · rw [hs, e4]
    calc val t * (sr.toNat * 2 ^ 149) ≤ 5 * 2 ^ 149 * (192000 * 2 ^ 149) :=
          Int.mul_le_mul (by omega) (by omega) (by omega) (by norm_num)
      _ ≤ 2 ^ 149 * 2 ^ 169 := by norm_num

/-- A part of [0, 1] divided by a time in samples lies in [0, 1]. -/
theorem rate_between {x d : Word} (hx : Between B32.zero x B32.one) (hd : Between B32.one d 0x49800000#32) :
    Between B32.zero (div x d) B32.one := by
  obtain ⟨fx, hx0, hx1⟩ := hx
  obtain ⟨fd, hd1, -⟩ := hd
  have e0 : val B32.zero = 0 := by decide
  have e1 : val B32.one = 2 ^ 149 := by decide
  exact div_part_between fx fd (by omega) (by omega) (by omega)

/-- The three rates of a sound and legal envelope lie in [0, 1] (R350). -/
theorem EnvOk.rates_between {e : Env} (h : EnvOk e) (hl : EnvLegal e) :
    Between B32.zero e.attackRate B32.one ∧ Between B32.zero e.decayRate B32.one ∧
      Between B32.zero e.releaseRate B32.one := by
  obtain ⟨hsr, hrates⟩ := h
  obtain ⟨ha, hd, hr, hs, -⟩ := hl
  have e0 : val B32.zero = 0 := by decide
  have hone : Between B32.zero B32.one B32.one := ⟨by decide, by decide, by decide⟩
  obtain ⟨fs, hs0, hs1⟩ := (inRange_iff (by decide) (by decide)).1 hs
  have hrest : Between B32.zero (sub B32.one e.sustain) B32.one :=
    sub_between (by decide) fs (by decide) (by decide) (by omega) (by omega)
  rw [← hrates]
  exact ⟨rate_between hone (envSamples_between ha hsr), rate_between hrest (envSamples_between hd hsr),
    rate_between hone (envSamples_between hr hsr)⟩

/-- A rising level that has not reached 1 is still in [0, 1] (R351). -/
theorem level_attack {l r : Word} (hl : InRange B32.zero l B32.one) (hr : Between B32.zero r B32.one)
    (hlt : ¬ B32.le B32.one (add l r) = true) : InRange B32.zero (add l r) B32.one := by
  rw [inRange_iff (by decide) (by decide)] at hl ⊢
  obtain ⟨fl, hl0, hl1⟩ := hl
  obtain ⟨fr, hr0, hr1⟩ := hr
  have e0 : val B32.zero = 0 := by decide
  have e1 : val B32.one = 2 ^ 149 := by decide
  have e2 : val B32.two = 2 ^ 150 := by decide
  obtain ⟨fx, hx0, -⟩ : Between B32.zero (add l r) B32.two :=
    add_between fl fr (by decide) (by decide) (by omega) (by omega)
  rw [le_iff_val (by decide) fx] at hlt
  exact ⟨fx, hx0, by omega⟩

/-- A falling level that has not reached a floor of [0, 1] is still in [0, 1] (R351). -/
theorem level_fall {l r floor : Word} (hl : InRange B32.zero l B32.one) (hr : Between B32.zero r B32.one)
    (hf : InRange B32.zero floor B32.one) (hlt : ¬ B32.le (sub l r) floor = true) :
    InRange B32.zero (sub l r) B32.one := by
  rw [inRange_iff (by decide) (by decide)] at hl hf ⊢
  obtain ⟨fl, hl0, hl1⟩ := hl
  obtain ⟨fr, hr0, hr1⟩ := hr
  obtain ⟨ff, hf0, hf1⟩ := hf
  have e0 : val B32.zero = 0 := by decide
  have e1 : val B32.one = 2 ^ 149 := by decide
  have e2 : val (0xBF800000#32) = -2 ^ 149 := by decide
  obtain ⟨fx, -, hx1⟩ : Between 0xBF800000#32 (sub l r) B32.one :=
    sub_between fl fr (by decide) (by decide) (by omega) (by omega)
  rw [le_iff_val fx ff] at hlt
  exact ⟨fx, by omega, hx1⟩

/-! ## Line lengths -/

/-- A delay line holds one second: as many slots as the rate has samples (R402). -/
theorem dlyLen_eq {sr : Word} (h : RateOk sr) : dlyLen sr = sr.toNat := by
  obtain ⟨fs, hs⟩ := h.exact
  have e1 : val Config.dlyMaxS = 2 ^ 149 := by decide
  obtain ⟨-, h1, h2⟩ := mul_between (a := Config.dlyMaxS) (by decide) fs fs fs (by rw [e1]) (by rw [e1])
  rw [dlyLen, (toCount (k := sr.toNat) (by omega)).1, Int.toNat_natCast]

/-- A value of at least 1 rounds to at least 1 (R10). -/
theorem one_le_roundHalfAway {x : Word} (h : 2 ^ 149 ≤ val x) : 1 ≤ roundHalfAway x := by
  have := (roundHalfAway_near x).1
  omega

/-- A reverb line has a slot at every rate (R413). -/
theorem one_le_revLen {base sr : Word} (h : RateOk sr)
    (hb : isFinite (mul base 0x40400000#32) = true ∧ 2 ^ 143 ≤ val (mul base 0x40400000#32) ∧
      val (mul base 0x40400000#32) ≤ 2 ^ 149) :
    1 ≤ revLen base sr := by
  obtain ⟨fb, hb0, hb1⟩ := hb
  obtain ⟨fs, hs⟩ := h.exact
  have hr := h.bounds
  have e1 : val B32.one = 2 ^ 149 := by decide
  have e2 : val (0x48800000#32) = 2 ^ 167 := by decide
  obtain ⟨-, h1, -⟩ : Between B32.one (mul (mul base 0x40400000#32) (B32.ofNat sr.toNat)) 0x48800000#32 := by
    refine mul_between fb fs (by decide) (by decide) ?_ ?_
    · rw [hs, e1]
      calc (2 : Int) ^ 149 * 2 ^ 149 ≤ 2 ^ 143 * (8000 * 2 ^ 149) := by norm_num
        _ ≤ val (mul base 0x40400000#32) * (sr.toNat * 2 ^ 149) :=
          Int.mul_le_mul (by omega) (by omega) (by norm_num) (by omega)
    · rw [hs, e2]
      calc val (mul base 0x40400000#32) * (sr.toNat * 2 ^ 149) ≤ 2 ^ 149 * (192000 * 2 ^ 149) :=
            Int.mul_le_mul (by omega) (by omega) (by omega) (by norm_num)
        _ ≤ 2 ^ 149 * 2 ^ 167 := by norm_num
  have hround := one_le_roundHalfAway (h1.trans' e1.ge)
  rw [revLen]
  omega

/-- Every line of a reverb has a slot. -/
theorem one_le_revLens {sr : Word} (h : RateOk sr) :
    1 ≤ (revLens sr).e1 ∧ 1 ≤ (revLens sr).e2 ∧ 1 ≤ (revLens sr).e3 ∧ 1 ≤ (revLens sr).t := by
  simp only [revLens]
  exact ⟨one_le_revLen h (by decide +kernel), one_le_revLen h (by decide +kernel),
    one_le_revLen h (by decide +kernel), one_le_revLen h (by decide +kernel)⟩

theorem dlyDist_bounds {time sr : Word} {len : Nat} (h : 1 ≤ len) :
    1 ≤ dlyDist time sr len ∧ dlyDist time sr len ≤ len := clampNat_bounds h

theorem revDist_bounds {base room sr : Word} {len : Nat} (h : 1 ≤ len) :
    1 ≤ revDist base room sr len ∧ revDist base room sr len ≤ len := clampNat_bounds h

end Sys2Proof.Machine
end

section
/-! What a step keeps of a record: its structure, and with it its legal values (10_state.md R63-R72). -/

namespace Sys2Proof.Machine

open B32

/-! ## Changes that keep a record sound and legal -/

/-- A change of a record that keeps its structure and, with it, its legal values. -/
def Keeps {α : Type} (ok legal : α → Prop) (u v : α) : Prop := ok u → ok v ∧ (legal u → legal v)

theorem Keeps.refl {α : Type} {ok legal : α → Prop} (u : α) : Keeps ok legal u u := fun h => ⟨h, id⟩

theorem Keeps.trans {α : Type} {ok legal : α → Prop} {u v w : α} (a : Keeps ok legal u v) (b : Keeps ok legal v w) :
    Keeps ok legal u w := fun h =>
  ⟨(b (a h).1).1, fun hl => (b (a h).1).2 ((a h).2 hl)⟩

/-- What every frame keeps of a unit, a block of frames keeps. -/
theorem runFrames_keeps_of {α : Type} {ok legal : α → Prop} {step : α → Frame → Frame × α}
    (h : ∀ u f, Keeps ok legal u (step u f).2) (u : α) (fs : List Frame) : Keeps ok legal u (runFrames step u fs).2 :=
  runFrames_keeps (P := Keeps ok legal u) (fun v f hv => hv.trans (h v f)) fs u (.refl u)

def PolyLegal (u : Poly) : Prop := ∀ v ∈ u.voice, VoiceLegal v

def EPoolLegal (p : EPool) : Prop := ∀ m ∈ p.member, EnvLegal m.env

/-! ## Lists changed at one place -/

theorem map_modify_const {α β : Type} {f : α → α} {g : α → β} {c : β} (h : ∀ a, g (f a) = c) (l : List α) (j : Nat) :
    (l.modify j f).map g = (l.map g).set j c := by
  induction l generalizing j with
  | nil => simp
  | cons a l ih => cases j <;> simp [h, ih]

theorem forall_mem_modify {α : Type} {P : α → Prop} {f : α → α} (hf : ∀ a, P a → P (f a)) {l : List α}
    (h : ∀ a ∈ l, P a) (j : Nat) : ∀ a ∈ l.modify j f, P a := by
  induction l generalizing j with
  | nil => simp
  | cons a l ih =>
    rw [List.forall_mem_cons] at h
    cases j with
    | zero => exact List.forall_mem_cons.2 ⟨hf a h.1, h.2⟩
    | succ j => exact List.forall_mem_cons.2 ⟨h.1, ih h.2 j⟩

/-! ## Note maps (41_oscillator.md R312, 42_envelope.md R363) -/

/-- Unmapping a slot keeps the notes distinct. -/
theorem NotesDistinct.set_none {l : List (Option (Fin 128))} (h : NotesDistinct l) (k : Nat) :
    NotesDistinct (l.set k none) := by
  have old : ∀ (i : Nat) (n : Fin 128), (l.set k none)[i]? = some (some n) → l[i]? = some (some n) := by
    intro i n hi
    rw [List.getElem?_set] at hi
    split at hi
    · split at hi <;> cases hi
    · exact hi
  exact fun i j n hi hj => h i j n (old i n hi) (old j n hj)

/-- Mapping a note to its own slot, or to any slot when it has none, keeps the notes distinct. -/
theorem NotesDistinct.set_some {l : List (Option (Fin 128))} (h : NotesDistinct l) {k : Nat} {note : Fin 128}
    (hk : l[k]? = some (some note) ∨ some note ∉ l) : NotesDistinct (l.set k (some note)) := by
  have other : ∀ i, i ≠ k → l[i]? ≠ some (some note) := by
    intro i hne hi
    rcases hk with hk | hk
    · exact hne (h i k note hi hk)
    · exact hk (List.mem_of_getElem? hi)
  have cases_of : ∀ (i : Nat) (n : Fin 128), (l.set k (some note))[i]? = some (some n) →
      (i = k ∧ n = note) ∨ (i ≠ k ∧ l[i]? = some (some n)) := by
    intro i n hi
    rw [List.getElem?_set] at hi
    split at hi
    · next he =>
      split at hi
      · cases hi; exact .inl ⟨he.symm, rfl⟩
      · cases hi
    · next hne => exact .inr ⟨Ne.symm hne, hi⟩
  intro i j n hi hj
  rcases cases_of i n hi with ⟨rfl, rfl⟩ | ⟨hne, hold⟩ <;> rcases cases_of j _ hj with ⟨rfl, hn⟩ | ⟨hne', hold'⟩
  · rfl
  · exact absurd hold' (other j hne')
  · exact absurd (hn ▸ hold) (other i hne)
  · exact h i j n hold hold'

/-- The slot a note takes is its own, or the note had none. -/
theorem noteSlot_own_or_absent (note : Fin 128) (l : List (Option (Fin 128))) :
    l[noteSlot note l]? = some (some note) ∨ some note ∉ l := by
  unfold noteSlot
  split
  · next k hk => exact .inl (noteIndex_some hk)
  · next hn => exact .inr (noteIndex_none hn)

/-! ## Oscillators -/

theorem oscLegal_new (sr : Word) : OscLegal (newOsc sr) := by
  simp only [OscLegal, newOsc, InRange, PhaseOk]; decide

theorem keeps_oscSetFreq {u : Osc} {f : Word} (hf : isNaN f = false) :
    Keeps OscOk OscLegal u
      { u with freq := clamp f Config.fMin Config.fMax, inc := phaseInc (clamp f Config.fMin Config.fMax) u.sr } :=
  fun h => ⟨⟨h.1, rfl⟩, fun hl => ⟨clamp_inRange hf (by decide), hl.2.1, hl.2.2⟩⟩

theorem keeps_oscSetAmp {u : Osc} {a : Word} (ha : isNaN a = false) :
    Keeps OscOk OscLegal u { u with amp := clamp a B32.zero B32.one } :=
  fun h => ⟨h, fun hl => ⟨hl.1, clamp_inRange ha (by decide), hl.2.2⟩⟩

theorem keeps_oscSetWave (u : Osc) (w : Wave) : Keeps OscOk OscLegal u { u with wave := w } := fun h => ⟨h, id⟩

theorem keeps_oscStep (u : Osc) (k : Nat) : Keeps OscOk OscLegal u (oscStep u k).2.1 := by
  refine fun h => ⟨h, fun ⟨hf, ha, hp⟩ => ⟨hf, ha, phaseOk_phaseNext hp ?_⟩⟩
  rw [h.2]
  exact phaseInc_between hf h.1

theorem keeps_oscGen (n : Nat) (u : Osc) (k : Nat) : Keeps OscOk OscLegal u (oscGen n u k).2.1 := by
  induction n generalizing u k with
  | zero => exact .refl u
  | succ n ih => exact (keeps_oscStep u k).trans (ih _ _)

/-! ## Polyphonic oscillators -/

theorem polyLegal_new (sr : Word) : PolyLegal (newPoly sr) := by
  intro v hv
  rw [List.eq_of_mem_replicate hv]
  simp only [VoiceLegal, newVoice, InRange, PhaseOk]; decide

theorem keeps_polySetWave (u : Poly) (w : Wave) : Keeps PolyOk PolyLegal u { u with wave := w } := fun h => ⟨h, id⟩

theorem voiceLegal_on (sr : Word) (note : Fin 128) (vel : Word) {v : Voice} (h : VoiceLegal v) :
    VoiceLegal (voiceOn sr note (argVel vel) v) := by
  rw [voiceOn]
  simp only [VoiceLegal]
  exact ⟨clamp_inRange (isNaN_midiFreq note.isLt) (by decide), velocity_inRange vel, h.2.2⟩

theorem voiceOn_inc (sr : Word) (note : Fin 128) (vel : Nat) (v : Voice) :
    (voiceOn sr note vel v).inc = phaseInc (voiceOn sr note vel v).freq sr := by
  simp only [voiceOn]

theorem keeps_polyNoteOn (u : Poly) (note : Fin 128) (vel : Word) :
    Keeps PolyOk PolyLegal u
      { u with voice := u.voice.modify (noteSlot note (u.voice.map (·.note))) (voiceOn u.sr note (argVel vel)) } := by
  rintro ⟨hsr, hlen, hnotes, hinc⟩
  refine ⟨⟨hsr, by simpa using hlen, ?_, forall_mem_modify (fun v _ => voiceOn_inc _ _ _ v) hinc _⟩,
    fun hl => forall_mem_modify (fun v hv => voiceLegal_on _ _ _ hv) hl _⟩
  have hn := hnotes.set_some (noteSlot_own_or_absent note _)
  rwa [← map_modify_const (f := voiceOn u.sr note (argVel vel)) fun _ => rfl] at hn

theorem keeps_polyNoteOff (u : Poly) (j : Nat) :
    Keeps PolyOk PolyLegal u { u with voice := u.voice.modify j (fun v => { v with note := none }) } := by
  rintro ⟨hsr, hlen, hnotes, hinc⟩
  refine ⟨⟨hsr, by simpa using hlen, ?_, forall_mem_modify ?_ hinc _⟩, fun hl => forall_mem_modify ?_ hl _⟩
  · have hn := hnotes.set_none j
    rwa [← map_modify_const (f := fun v : Voice => { v with note := none }) fun _ => rfl] at hn
  · exact fun _ hv => hv
  · exact fun _ hv => hv

/-- A voice after a sample: a mapped one moves its phase on (R310). -/
def voiceNext (v : Voice) : Voice := if v.note.isSome then { v with phase := phaseNext v.phase v.inc } else v

/-- Every voice of a POLY after a sample (R310). -/
theorem voicesStep_voices (w : Wave) (vs : List Voice) (acc : Word) (k : Nat) :
    (voicesStep w vs acc k).2.1 = vs.map voiceNext := by
  induction vs generalizing acc k with
  | nil => rfl
  | cons v vs ih =>
    rw [List.map_cons, voiceNext, voicesStep]
    cases hn : v.note with
    | none => exact congrArg (v :: ·) (ih _ _)
    | some n => exact congrArg (_ :: ·) (ih _ _)

@[simp] theorem voiceNext_note (v : Voice) : (voiceNext v).note = v.note := by unfold voiceNext; split <;> rfl
@[simp] theorem voiceNext_freq (v : Voice) : (voiceNext v).freq = v.freq := by unfold voiceNext; split <;> rfl
@[simp] theorem voiceNext_inc (v : Voice) : (voiceNext v).inc = v.inc := by unfold voiceNext; split <;> rfl
@[simp] theorem voiceNext_amp (v : Voice) : (voiceNext v).amp = v.amp := by unfold voiceNext; split <;> rfl

theorem voiceLegal_next {v : Voice} {sr : Word} (h : VoiceLegal v) (hsr : RateOk sr) (hinc : v.inc = phaseInc v.freq sr) :
    VoiceLegal (voiceNext v) := by
  obtain ⟨hf, ha, hp⟩ := h
  refine ⟨by simpa using hf, by simpa using ha, ?_⟩
  unfold voiceNext
  split
  · exact phaseOk_phaseNext hp (hinc ▸ phaseInc_between hf hsr)
  · exact hp

theorem keeps_voicesNext (u : Poly) : Keeps PolyOk PolyLegal u { u with voice := u.voice.map voiceNext } := by
  rintro ⟨hsr, hlen, hnotes, hinc⟩
  refine ⟨⟨hsr, by simpa using hlen, ?_, ?_⟩, fun hl => ?_⟩
  · simpa [Function.comp_def] using hnotes
  · exact List.forall_mem_map.2 fun v hv => by simpa using hinc v hv
  · exact List.forall_mem_map.2 fun v hv => voiceLegal_next (hl v hv) hsr (hinc v hv)

theorem keeps_polyStep (u : Poly) (k : Nat) : Keeps PolyOk PolyLegal u (polyStep u k).2.1 := by
  unfold polyStep
  split
  · exact .refl u
  · show Keeps PolyOk PolyLegal u { u with voice := (voicesStep u.wave u.voice B32.zero k).2.1 }
    rw [voicesStep_voices]
    exact keeps_voicesNext u

theorem keeps_polyGen (n : Nat) (u : Poly) (k : Nat) : Keeps PolyOk PolyLegal u (polyGen n u k).2.1 := by
  induction n generalizing u k with
  | zero => exact .refl u
  | succ n ih => exact (keeps_polyStep u k).trans (ih _ _)

/-! ## Envelopes -/

/-- Rates computed afresh belong to the parameters (R350). -/
theorem envOk_withRates {e : Env} (h : RateOk e.sr) : EnvOk (withRates e) := ⟨h, rfl⟩

/-- A change of level and state leaves the rates those of the parameters (R350). -/
theorem EnvOk.setLevel {e : Env} (h : EnvOk e) (l : Word) (st : EnvState) : EnvOk { e with level := l, state := st } :=
  ⟨h.1, congrArg (fun d : Env => { d with level := l, state := st }) h.2⟩

theorem EnvLegal.setLevel {e : Env} (h : EnvLegal e) {l : Word} (hl : InRange B32.zero l B32.one) (st : EnvState) :
    EnvLegal { e with level := l, state := st } := ⟨h.1, h.2.1, h.2.2.1, h.2.2.2.1, hl⟩

theorem envLegal_new (sr : Word) : EnvLegal (newEnv sr) := by
  simp only [EnvLegal, newEnv, withRates, InRange]; decide

theorem keeps_envSetAttackT {t : Word} (ht : isNaN t = false) (e : Env) : Keeps EnvOk EnvLegal e (envSetAttackT t e) :=
  fun h => ⟨envOk_withRates h.1, fun hl => ⟨clamp_inRange ht (by decide), hl.2⟩⟩

theorem keeps_envSetDecayT {t : Word} (ht : isNaN t = false) (e : Env) : Keeps EnvOk EnvLegal e (envSetDecayT t e) :=
  fun h => ⟨envOk_withRates h.1, fun ⟨ha, _, hrest⟩ => ⟨ha, clamp_inRange ht (by decide), hrest⟩⟩

theorem keeps_envSetReleaseT {t : Word} (ht : isNaN t = false) (e : Env) : Keeps EnvOk EnvLegal e (envSetReleaseT t e) :=
  fun h => ⟨envOk_withRates h.1, fun ⟨ha, hd, _, hrest⟩ => ⟨ha, hd, clamp_inRange ht (by decide), hrest⟩⟩

theorem keeps_envSetSustainL {x : Word} (hx : isNaN x = false) (e : Env) : Keeps EnvOk EnvLegal e (envSetSustainL x e) :=
  fun h => ⟨envOk_withRates h.1, fun ⟨ha, hd, hr, _, hlev⟩ => ⟨ha, hd, hr, clamp_inRange hx (by decide), hlev⟩⟩

theorem keeps_envSetBy {x : Word} (hx : isNaN x = false) (sel : Nat) (e : Env) :
    Keeps EnvOk EnvLegal e (envSetBy sel x e) := by
  unfold envSetBy
  split
  · exact keeps_envSetAttackT hx e
  · exact keeps_envSetDecayT hx e
  · exact keeps_envSetSustainL hx e
  · exact keeps_envSetReleaseT hx e

theorem keeps_envOn (e : Env) : Keeps EnvOk EnvLegal e (envOn e) := by
  refine fun h => ⟨h.setLevel _ _, fun hl => hl.setLevel ?_ _⟩
  split
  · exact ⟨by decide, by decide⟩
  · exact hl.2.2.2.2

theorem keeps_envOff (e : Env) : Keeps EnvOk EnvLegal e (envOff e) :=
  fun h => ⟨h.setLevel e.level .release, fun hl => hl.setLevel hl.2.2.2.2 .release⟩

/-- A sample of an envelope keeps it sound and legal: the level stays in [0, 1] in every phase (R351). -/
theorem keeps_envStep (e : Env) : Keeps EnvOk EnvLegal e (envStep e) := by
  intro h
  have hzero : InRange B32.zero B32.zero B32.one := ⟨by decide, by decide⟩
  have hone : InRange B32.zero B32.one B32.one := ⟨by decide, by decide⟩
  unfold envStep
  split
  · exact ⟨h, id⟩
  · unfold attackTo
    split
    · exact ⟨h.setLevel _ _, fun hl => hl.setLevel hone _⟩
    · next hlt =>
      exact ⟨h.setLevel _ e.state, fun hl =>
        hl.setLevel (level_attack hl.2.2.2.2 (h.rates_between hl).1 hlt) e.state⟩
  · unfold decayTo
    split
    · exact ⟨h.setLevel _ _, fun hl => hl.setLevel hl.2.2.2.1 _⟩
    · next hlt =>
      exact ⟨h.setLevel _ e.state, fun hl =>
        hl.setLevel (level_fall hl.2.2.2.2 (h.rates_between hl).2.1 hl.2.2.2.1 hlt) e.state⟩
  · exact ⟨h, id⟩
  · unfold releaseTo
    split
    · exact ⟨h.setLevel _ _, fun hl => hl.setLevel hzero _⟩
    · next hlt =>
      exact ⟨h.setLevel _ e.state, fun hl =>
        hl.setLevel (level_fall hl.2.2.2.2 (h.rates_between hl).2.2 hzero hlt) e.state⟩

theorem keeps_envSteps (n : Nat) (e : Env) : Keeps EnvOk EnvLegal e (envSteps n e) := by
  induction n generalizing e with
  | zero => exact .refl e
  | succ n ih => exact (keeps_envStep e).trans (ih _)

theorem keeps_envGen (n : Nat) (e : Env) : Keeps EnvOk EnvLegal e (envGen n e).2 := by
  rw [envGen_snd]; exact keeps_envSteps n e

theorem envStep_sr (e : Env) : (envStep e).sr = e.sr := by
  unfold envStep attackTo decayTo releaseTo
  split <;> first | rfl | (split <;> rfl)

theorem envSteps_sr (n : Nat) (e : Env) : (envSteps n e).sr = e.sr := by
  induction n generalizing e with
  | zero => rfl
  | succ n ih => exact (ih _).trans (envStep_sr e)

theorem envSetBy_sr (sel : Nat) (x : Word) (e : Env) : (envSetBy sel x e).sr = e.sr := by
  unfold envSetBy; split <;> rfl

/-! ## Envelope pools -/

theorem epoolLegal_new (sr : Word) : EPoolLegal (newEpool sr) := by
  intro m hm
  rw [List.eq_of_mem_replicate hm]
  exact envLegal_new sr

/-- A change of every member's envelope alone. -/
theorem keeps_members_map {f : Env → Env} (hf : ∀ e, Keeps EnvOk EnvLegal e (f e)) (hsr : ∀ e, (f e).sr = e.sr)
    (p : EPool) :
    Keeps EPoolOk EPoolLegal p { p with member := p.member.map (fun m => { m with env := f m.env }) } := by
  rintro ⟨hrate, hlen, hnotes, henv⟩
  refine ⟨⟨hrate, by simpa using hlen, by simpa [Function.comp_def] using hnotes,
    List.forall_mem_map.2 fun m hm => ⟨(hf _ (henv m hm).1).1, (hsr _).trans (henv m hm).2⟩⟩, fun hl => ?_⟩
  exact List.forall_mem_map.2 fun m hm => (hf _ (henv m hm).1).2 (hl m hm)

/-- A change of one member's envelope and note. -/
theorem keeps_members_modify {f : Env → Env} (hf : ∀ e, Keeps EnvOk EnvLegal e (f e)) (hsr : ∀ e, (f e).sr = e.sr)
    {p : EPool} {j : Nat} {n : Option (Fin 128)}
    (hn : NotesDistinct (p.member.map (·.note)) → NotesDistinct ((p.member.map (·.note)).set j n)) :
    Keeps EPoolOk EPoolLegal p { p with member := p.member.modify j (fun m => { env := f m.env, note := n }) } := by
  rintro ⟨hrate, hlen, hnotes, henv⟩
  refine ⟨⟨hrate, by simpa using hlen, ?_,
    forall_mem_modify (fun m hm => ⟨(hf _ hm.1).1, (hsr _).trans hm.2⟩) henv j⟩, fun hl => ?_⟩
  · rw [map_modify_const (c := n) fun _ => rfl]
    exact hn hnotes
  · have hboth : ∀ m ∈ p.member, EnvOk m.env ∧ EnvLegal m.env := fun m hm => ⟨(henv m hm).1, hl m hm⟩
    exact fun m hm =>
      (forall_mem_modify (P := fun m => EnvOk m.env ∧ EnvLegal m.env) (f := fun m => { env := f m.env, note := n })
        (fun m hm => ⟨(hf _ hm.1).1, (hf _ hm.1).2 hm.2⟩) hboth j m hm).2

theorem keeps_epoolNoteOn (p : EPool) (note : Fin 128) :
    Keeps EPoolOk EPoolLegal p { p with
      member := p.member.modify (noteSlot note (p.member.map (·.note))) (fun m => { env := envOn m.env, note := some note }) } :=
  keeps_members_modify keeps_envOn (fun _ => rfl) fun h => h.set_some (noteSlot_own_or_absent note _)

theorem keeps_epoolNoteOff (p : EPool) (j : Nat) :
    Keeps EPoolOk EPoolLegal p { p with
      member := p.member.modify j (fun m => { env := envOff m.env, note := none }) } :=
  keeps_members_modify keeps_envOff (fun _ => rfl) fun h => h.set_none j

/-! ## Delays -/

theorem dlyOk_created {sr : Word} (h : RateOk sr) : DlyOk (newDly sr) := by
  have hlen := dlyLen_eq h
  have hr := h.bounds
  refine dlyOk_new h hlen ?_
  simp only [newDly]
  exact dlyDist_bounds (by omega)

theorem dlyLegal_new (sr : Word) : DlyLegal (newDly sr) := by
  simp only [DlyLegal, MixLegal, newDly, InRange]; decide

theorem keeps_dlySetTime {u : Dly} {t : Word} (ht : isNaN t = false) :
    Keeps DlyOk DlyLegal u
      { u with time := clamp t B32.zero Config.dlyMaxS, d := dlyDist (clamp t B32.zero Config.dlyMaxS) u.sr u.len } := by
  rintro ⟨hsr, hlen, -, h1, h2, hlines⟩
  have hd := dlyDist_bounds (time := clamp t B32.zero Config.dlyMaxS) (sr := u.sr) (h1.trans h2)
  exact ⟨⟨hsr, hlen, rfl, hd.1, hd.2, hlines⟩, fun hl => ⟨clamp_inRange ht (by decide), hl.2⟩⟩

theorem keeps_dlySetFeedback {u : Dly} {g : Word} (hg : isNaN g = false) :
    Keeps DlyOk DlyLegal u { u with feedback := clamp g B32.zero Config.feedbackMax } :=
  fun h => ⟨h, fun hl => ⟨hl.1, clamp_inRange hg (by decide), hl.2.2⟩⟩

theorem keeps_dlySetMix {u : Dly} {m : FxMix} (hm : MixLegal u.mix → MixLegal m) :
    Keeps DlyOk DlyLegal u { u with mix := m } := fun h => ⟨h, fun hl => ⟨hl.1, hl.2.1, hm hl.2.2⟩⟩

theorem keeps_dlyFrame (u : Dly) (f : Frame) : Keeps DlyOk DlyLegal u (dlyFrame u f).2 := by
  rintro ⟨hsr, hlen, hd, h1, h2, hL, hR⟩
  exact ⟨⟨hsr, hlen, hd, h1, h2, delayBufOk_writeSample hL _, delayBufOk_writeSample hR _⟩, id⟩

theorem keeps_dlyRun (u : Dly) (fs : List Frame) : Keeps DlyOk DlyLegal u (dlyRun u fs).2 := by
  unfold dlyRun
  split
  · exact .refl u
  · exact runFrames_keeps_of keeps_dlyFrame u fs

/-- Processing keeps the common effect fields. -/
theorem dlyRun_mix (u : Dly) (fs : List Frame) : (dlyRun u fs).2.mix = u.mix := by
  unfold dlyRun
  split
  · rfl
  · exact runFrames_keeps (P := fun v : Dly => v.mix = u.mix) (fun _ _ h => h) fs u rfl

/-! ## Filters -/

theorem fltLegal_new (sr : Word) : FltLegal (newFlt sr) := by
  simp only [FltLegal, MixLegal, newFlt, InRange]; decide

theorem keeps_fltSetMode (u : Flt) (m : FilterMode) :
    Keeps FltOk FltLegal u { u with mode := m, co := coeffs m u.cutoff u.q u.sr } := fun h => ⟨⟨h.1, rfl⟩, id⟩

theorem keeps_fltSetCutoff {u : Flt} {f : Word} (hf : isNaN f = false) :
    Keeps FltOk FltLegal u { u with
      cutoff := clamp f Config.fMin Config.fMax, co := coeffs u.mode (clamp f Config.fMin Config.fMax) u.q u.sr } :=
  fun h => ⟨⟨h.1, rfl⟩, fun hl => ⟨clamp_inRange hf (by decide), hl.2⟩⟩

theorem keeps_fltSetQ {u : Flt} {q : Word} (hq : isNaN q = false) :
    Keeps FltOk FltLegal u { u with
      q := clamp q Config.qMin Config.qMax, co := coeffs u.mode u.cutoff (clamp q Config.qMin Config.qMax) u.sr } :=
  fun h => ⟨⟨h.1, rfl⟩, fun hl => ⟨hl.1, clamp_inRange hq (by decide), hl.2.2⟩⟩

theorem keeps_fltSetMix {u : Flt} {m : FxMix} (hm : MixLegal u.mix → MixLegal m) :
    Keeps FltOk FltLegal u { u with mix := m } := fun h => ⟨h, fun hl => ⟨hl.1, hl.2.1, hm hl.2.2⟩⟩

theorem keeps_fltRun (u : Flt) (fs : List Frame) : Keeps FltOk FltLegal u (fltRun u fs).2 := by
  unfold fltRun
  split
  · exact .refl u
  · exact runFrames_keeps_of (fun _ _ h => ⟨h, id⟩) u fs

theorem fltRun_mix (u : Flt) (fs : List Frame) : (fltRun u fs).2.mix = u.mix := by
  unfold fltRun
  split
  · rfl
  · exact runFrames_keeps (P := fun v : Flt => v.mix = u.mix) (fun _ _ h => h) fs u rfl

/-! ## Reverbs -/

theorem linesOk_new {len : Taps Nat} (h : 1 ≤ len.e1 ∧ 1 ≤ len.e2 ∧ 1 ≤ len.e3 ∧ 1 ≤ len.t) :
    LinesOk len (newLines len) :=
  ⟨delayBufOk_new h.1, delayBufOk_new h.2.1, delayBufOk_new h.2.2.1, delayBufOk_new h.2.2.2⟩

theorem revOk_new {sr : Word} (h : RateOk sr) : RevOk (newRev sr) := by
  have hlen := one_le_revLens h
  have ⟨h1, h2, h3, ht⟩ := hlen
  refine ⟨h, rfl, rfl, ?_, ?_, ?_, ?_, linesOk_new hlen, linesOk_new hlen⟩ <;> simp only [newRev, revDists]
  exacts [revDist_bounds h1, revDist_bounds h2, revDist_bounds h3, revDist_bounds ht]

theorem revLegal_new (sr : Word) : RevLegal (newRev sr) := by
  simp only [RevLegal, MixLegal, newRev, InRange]; decide

theorem keeps_revSetRoom {u : Rev} {r : Word} (hr : isNaN r = false) :
    Keeps RevOk RevLegal u
      { u with room := clamp r B32.zero B32.one, d := revDists (clamp r B32.zero B32.one) u.sr u.len } := by
  rintro ⟨hsr, hlen, -, h1, h2, h3, ht, hL, hR⟩
  exact ⟨⟨hsr, hlen, rfl, revDist_bounds (h1.1.trans h1.2), revDist_bounds (h2.1.trans h2.2),
    revDist_bounds (h3.1.trans h3.2), revDist_bounds (ht.1.trans ht.2), hL, hR⟩,
    fun hl => ⟨clamp_inRange hr (by decide), hl.2⟩⟩

theorem keeps_revSetDecay {u : Rev} {g : Word} (hg : isNaN g = false) :
    Keeps RevOk RevLegal u { u with decay := clamp g B32.zero Config.feedbackMax } :=
  fun h => ⟨h, fun hl => ⟨hl.1, clamp_inRange hg (by decide), hl.2.2⟩⟩

theorem keeps_revSetMix {u : Rev} {m : FxMix} (hm : MixLegal u.mix → MixLegal m) :
    Keeps RevOk RevLegal u { u with mix := m } := fun h => ⟨h, fun hl => ⟨hl.1, hl.2.1, hm hl.2.2⟩⟩

theorem linesOk_revLane {u : Rev} {ln : Taps DelayBuf} (h : LinesOk u.len ln) (x : Word) :
    LinesOk u.len (revLane u ln x).2 :=
  ⟨delayBufOk_writeSample h.1 _, delayBufOk_writeSample h.2.1 _, delayBufOk_writeSample h.2.2.1 _,
    delayBufOk_writeSample h.2.2.2 _⟩

theorem keeps_revFrame (u : Rev) (f : Frame) : Keeps RevOk RevLegal u (revFrame u f).2 := by
  rintro ⟨hsr, hlen, hd, h1, h2, h3, ht, hL, hR⟩
  exact ⟨⟨hsr, hlen, hd, h1, h2, h3, ht, linesOk_revLane hL _, linesOk_revLane hR _⟩, id⟩

theorem keeps_revRun (u : Rev) (fs : List Frame) : Keeps RevOk RevLegal u (revRun u fs).2 := by
  unfold revRun
  split
  · exact .refl u
  · exact runFrames_keeps_of keeps_revFrame u fs

theorem revRun_mix (u : Rev) (fs : List Frame) : (revRun u fs).2.mix = u.mix := by
  unfold revRun
  split
  · rfl
  · exact runFrames_keeps (P := fun v : Rev => v.mix = u.mix) (fun _ _ h => h) fs u rfl

end Sys2Proof.Machine
end

section
/-! Everything a command or a frame request does to the state, as elementary changes: a record of a pool replaced, the
mixer, FIFO, ring or chain updated, sample words written, a draw counted, the engine's run state set. Each invariant of
the state is then proved once per elementary change (10_state.md R50-R77). -/

namespace Sys2Proof.Machine

open Relation (ReflTransGen)

/-! ## Channels of the mixer -/

def MixerLegal (m : Mixer) : Prop := InRange B32.zero m.master B32.one ∧ ∀ p ∈ m.ch, ChannelLegal p.2

/-- Every channel of `m'` was in `m` with the same mute bit. -/
def MutesFrom (m m' : Mixer) : Prop :=
  ∀ id c', findChannel m'.ch id = some c' → ∃ c, findChannel m.ch id = some c ∧ c'.mute = c.mute

theorem MutesFrom.refl (m : Mixer) : MutesFrom m m := fun _ c h => ⟨c, h, rfl⟩

theorem MutesFrom.trans {m m' m'' : Mixer} (a : MutesFrom m m') (b : MutesFrom m' m'') : MutesFrom m m'' := by
  intro id c'' h''
  obtain ⟨c', h', e'⟩ := b id c'' h''
  obtain ⟨c, h, e⟩ := a id c' h'
  exact ⟨c, h, e'.trans e⟩

theorem findChannel_map {g : Word × Channel → Word × Channel} (hid : ∀ p, (g p).1 = p.1) (l : List (Word × Channel))
    (id : Word) : findChannel (l.map g) id = (findChannel l id).map (fun c => (g (id, c)).2) := by
  induction l with
  | nil => rfl
  | cons p t ih =>
    obtain ⟨k, c⟩ := p
    have hk : (g (k, c)).1 = k := hid (k, c)
    rw [List.map_cons, findChannel, ← Prod.mk.eta (p := g (k, c)), findChannel, hk, ih]
    split
    · next h => rw [h]; rfl
    · rfl

/-- Channels changed in place, each under its id. -/
theorem MixerOk.map {s : State} {m : Mixer} (h : MixerOk s m) {g : Word × Channel → Word × Channel}
    (hid : ∀ p, (g p).1 = p.1) (hsrc : ∀ p ∈ m.ch, ∀ r, (g p).2.src = some r → r.live s) :
    MixerOk s { m with ch := m.ch.map g } := by
  obtain ⟨hlen, hrise, hnext, -⟩ := h
  refine ⟨by simpa using hlen, ?_, ?_, ?_⟩
  · rw [List.pairwise_map]; simpa only [hid] using hrise
  · exact List.forall_mem_map.2 fun p hp => by rw [hid]; exact hnext p hp
  · exact List.forall_mem_map.2 hsrc

theorem MutesFrom.map {m : Mixer} {g : Word × Channel → Word × Channel} (hid : ∀ p, (g p).1 = p.1)
    (hmute : ∀ id c, findChannel m.ch id = some c → (g (id, c)).2.mute = c.mute) :
    MutesFrom m { m with ch := m.ch.map g } := by
  intro id c' h
  rw [findChannel_map hid, Option.map_eq_some_iff] at h
  obtain ⟨c, hc, rfl⟩ := h
  exact ⟨c, hc, hmute id c hc⟩

/-- One channel replaced: its source is the old one or live. -/
theorem MixerOk.setChannel {s : State} {m : Mixer} (h : MixerOk s m) {id : Word} {c : Channel}
    (hsrc : ∀ r, c.src = some r → r.live s) : MixerOk s (m.setChannel id c) := by
  refine h.map (fun p => ?_) fun p hp r hr => ?_
  · split
    · next he => exact he.symm
    · rfl
  · split at hr
    · exact hsrc r hr
    · exact h.2.2.2 p hp r hr

theorem MixerOk.src_live {s : State} {m : Mixer} (h : MixerOk s m) {id : Word} {c : Channel}
    (hc : findChannel m.ch id = some c) : ∀ r, c.src = some r → r.live s := h.2.2.2 _ (findChannel_mem hc)

theorem MixerLegal.setChannel {m : Mixer} (h : MixerLegal m) {id : Word} {c : Channel} (hc : ChannelLegal c) :
    MixerLegal (m.setChannel id c) := by
  refine ⟨h.1, List.forall_mem_map.2 fun p hp => ?_⟩
  split
  · exact hc
  · exact h.2 p hp

theorem MixerLegal.channel {m : Mixer} (h : MixerLegal m) {id : Word} {c : Channel}
    (hc : findChannel m.ch id = some c) : ChannelLegal c := h.2 _ (findChannel_mem hc)

theorem MutesFrom.setChannel {m : Mixer} {id : Word} {c d : Channel} (hc : findChannel m.ch id = some c)
    (hmute : d.mute = c.mute) : MutesFrom m (m.setChannel id d) := by
  refine MutesFrom.map (fun p => ?_) fun id' c' h' => ?_
  · split
    · next he => exact he.symm
    · rfl
  · split
    · next he =>
      have he : id' = id := he
      subst he
      rw [hc] at h'
      cases h'
      exact hmute
    · rfl

/-- A channel after n samples (R473). -/
def channelNext (c : Channel) (n : Nat) : Channel := if c.src = none ∨ c.mute then c else channelAdv c n

theorem chGen_channel (s : State) (c : Channel) (n : Nat) : (chGen s c n).2.1 = channelNext c n := by
  unfold chGen channelNext
  cases c.src with
  | none => simp
  | some r => cases c.mute <;> simp

/-- The mixer's channels after n samples (R475). -/
theorem mixChannels_channels (n : Nat) (ch : List (Word × Channel)) (acc : List Frame) (s : State) :
    (mixChannels n ch acc s).2.1 = ch.map (fun p => (p.1, channelNext p.2 n)) := by
  induction ch generalizing acc s with
  | nil => rfl
  | cons p t ih =>
    rw [List.map_cons, ← ih (addBlock acc (chGen s p.2 n).1) (chGen s p.2 n).2.2, ← chGen_channel s]
    rfl

@[simp] theorem rampAdv_tgt (r : Ramp) (n : Nat) : (rampAdv r n).tgt = r.tgt := by
  unfold rampAdv
  split
  · rfl
  · split <;> rfl

@[simp] theorem channelNext_src (c : Channel) (n : Nat) : (channelNext c n).src = c.src := by
  unfold channelNext; split <;> rfl

@[simp] theorem channelNext_mute (c : Channel) (n : Nat) : (channelNext c n).mute = c.mute := by
  unfold channelNext; split <;> rfl

theorem ChannelLegal.next {c : Channel} (h : ChannelLegal c) (n : Nat) : ChannelLegal (channelNext c n) := by
  unfold channelNext
  split
  · exact h
  · simpa [ChannelLegal, channelAdv] using h

@[simp] theorem rampSet_tgt (r : Ramp) (v ms : Word) (given : Bool) (sr : Word) : (rampSet r v ms given sr).tgt = v := by
  unfold rampSet; split <;> rfl

/-! ## Elementary changes -/

/-- The structure of a chain in a state (10_state.md R76). -/
def ChainOk (s : State) (c : List FxRef) : Prop := c.Nodup ∧ c.length ≤ Config.maxChain ∧ ∀ r ∈ c, r.live s

/-- The commands that write sample words (10_state.md R61). -/
def sampleWriters : List Instr := [.mixGenerate, .srcGenerate, .fxProcess, .fifoRead, .fifoPeek, .ringRead]

/-- One elementary change of the state in serving a command (`some i`) or a frame request (`none`). -/
inductive Change (who : Option Instr) (s : State) : State → Prop
  | osc {k : Nat} {u v : Osc} (hu : poolGet s.osc k = some u) (hv : Keeps OscOk OscLegal u v) :
    Change who s (s.setOsc k v)
  | poly {k : Nat} {u v : Poly} (hu : poolGet s.poly k = some u) (hv : Keeps PolyOk PolyLegal u v) :
    Change who s (s.setPoly k v)
  | env {k : Nat} {u v : Env} (hu : poolGet s.env k = some u) (hv : Keeps EnvOk EnvLegal u v) :
    Change who s (s.setEnv k v)
  | epool {k : Nat} {u v : EPool} (hu : poolGet s.epool k = some u) (hv : Keeps EPoolOk EPoolLegal u v) :
    Change who s (s.setEpool k v)
  | dly {k : Nat} {u v : Dly} (hu : poolGet s.dly k = some u) (hv : Keeps DlyOk DlyLegal u v)
    (hb : who ≠ some .fxSetBypass → v.mix.bypass = u.mix.bypass) : Change who s (s.setDly k v)
  | flt {k : Nat} {u v : Flt} (hu : poolGet s.flt k = some u) (hv : Keeps FltOk FltLegal u v)
    (hb : who ≠ some .fxSetBypass → v.mix.bypass = u.mix.bypass) : Change who s (s.setFlt k v)
  | rev {k : Nat} {u v : Rev} (hu : poolGet s.rev k = some u) (hv : Keeps RevOk RevLegal u v)
    (hb : who ≠ some .fxSetBypass → v.mix.bypass = u.mix.bypass) : Change who s (s.setRev k v)
  | mixer {m m' : Mixer} (hm : s.mixer = some m) (hok : MixerOk s m → MixerOk s m')
    (hlegal : MixerLegal m → MixerLegal m')
    (hmute : who ≠ some .chSetMute → who ≠ some .mixAddChannel → MutesFrom m m') : Change who s (s.setMixer m')
  | fifo {f f' : Fifo} (hf : s.fifo = some f) (hok : ∀ bufsz, FifoOk bufsz f → FifoOk bufsz f') :
    Change who s (s.setFifo f')
  | ring {r r' : Ring} (hr : s.ring = some r) (hok : ∀ bufsz, RingOk bufsz r → RingOk bufsz r') :
    Change who s (s.setRing r')
  | chain {c : List FxRef} (hok : ChainOk s s.chain → ChainOk s c) : Change who s (s.setChain c)
  | samples {i : Instr} {ws : List Word} (hw : who = some i) (hi : i ∈ sampleWriters)
    (hlen : ws.length = swinWritten i s) (hmax : ws.length ≤ Config.swinWords) :
    Change who s (s.setSwin (s.swin.setWords 0 ws))
  | draws (d : Draws) : Change who s { s with draws := d }
  | runState {st : EngState} (hw : who = some .engStart ∨ who = some .engStop) (hs : s.eng.state ≠ .uninit)
    (hst : st ≠ .uninit) : Change who s (s.setEng { s.eng with state := st })

/-- A run of elementary changes. -/
abbrev Changes (who : Option Instr) : State → State → Prop := ReflTransGen (Change who)

/-! ## Sources, effects, the mixer and the chain change records, ramps and the NOISE counter -/

theorem changes_srcGen (who : Option Instr) (s : State) (r : SrcRef) (n : Nat) : Changes who s (srcGen s r n).2 := by
  unfold srcGen
  split <;> split
  · next hu => exact .tail (.single (.osc hu (keeps_oscGen n _ _))) (.draws _)
  · exact .refl
  · next hu => exact .tail (.single (.poly hu (keeps_polyGen n _ _))) (.draws _)
  · exact .refl
  · next hu => exact .single (.env hu (keeps_envGen n _))
  · exact .refl

theorem changes_fxRun (who : Option Instr) (s : State) (r : FxRef) (fs : List Frame) :
    Changes who s (fxRun s r fs).2 := by
  unfold fxRun
  split <;> split
  · next hu => exact .single (.dly hu (keeps_dlyRun _ fs) fun _ => by rw [dlyRun_mix])
  · exact .refl
  · next hu => exact .single (.flt hu (keeps_fltRun _ fs) fun _ => by rw [fltRun_mix])
  · exact .refl
  · next hu => exact .single (.rev hu (keeps_revRun _ fs) fun _ => by rw [revRun_mix])
  · exact .refl

theorem changes_setFxMix {who : Option Instr} (s : State) (r : FxRef) {f : FxMix → FxMix}
    (hf : ∀ m, MixLegal m → MixLegal (f m)) (hb : who ≠ some .fxSetBypass → ∀ m, (f m).bypass = m.bypass) :
    Changes who s (setFxMix s r f) := by
  unfold setFxMix
  split <;> split
  · next hu => exact .single (.dly hu (keeps_dlySetMix (hf _)) fun hw => hb hw _)
  · exact .refl
  · next hu => exact .single (.flt hu (keeps_fltSetMix (hf _)) fun hw => hb hw _)
  · exact .refl
  · next hu => exact .single (.rev hu (keeps_revSetMix (hf _)) fun hw => hb hw _)
  · exact .refl

theorem changes_chGen (who : Option Instr) (s : State) (c : Channel) (n : Nat) : Changes who s (chGen s c n).2.2 := by
  unfold chGen
  split
  · exact .refl
  · split
    · exact .refl
    · exact changes_srcGen who s _ n

theorem changes_mixChannels (who : Option Instr) (n : Nat) (ch : List (Word × Channel)) (acc : List Frame) (s : State) :
    Changes who s (mixChannels n ch acc s).2.2 := by
  induction ch generalizing acc s with
  | nil => exact .refl
  | cons p t ih => exact (changes_chGen who s p.2 n).trans (ih _ _)

/-- Generating pulls sources only: the mixer is as before. -/
theorem srcGen_mixer (s : State) (r : SrcRef) (n : Nat) : (srcGen s r n).2.mixer = s.mixer := by
  unfold srcGen; split <;> split <;> rfl

theorem chGen_mixer (s : State) (c : Channel) (n : Nat) : (chGen s c n).2.2.mixer = s.mixer := by
  unfold chGen
  split
  · rfl
  · split
    · rfl
    · exact srcGen_mixer s _ n

theorem mixChannels_mixer (n : Nat) (ch : List (Word × Channel)) (acc : List Frame) (s : State) :
    (mixChannels n ch acc s).2.2.mixer = s.mixer := by
  induction ch generalizing acc s with
  | nil => rfl
  | cons p t ih => exact (ih _ _).trans (chGen_mixer s p.2 n)

theorem changes_mixGen (who : Option Instr) {s : State} {m : Mixer} (hm : s.mixer = some m) (n : Nat) :
    Changes who s (mixGen s m n).2 := by
  have hmix := mixChannels_mixer n m.ch (silence n) s
  show Changes who s ((mixChannels n m.ch (silence n) s).2.2.setMixer
    { m with ch := (mixChannels n m.ch (silence n) s).2.1 })
  rw [mixChannels_channels]
  refine .tail (changes_mixChannels who n m.ch (silence n) s) (.mixer (hmix.trans hm) (fun h => ?_) (fun h => ?_) ?_)
  · exact h.map (fun _ => rfl) fun p hp r hr => h.2.2.2 p hp r (by simpa using hr)
  · exact ⟨h.1, List.forall_mem_map.2 fun p hp => (h.2 p hp).next n⟩
  · exact fun _ _ => MutesFrom.map (fun _ => rfl) fun _ _ _ => channelNext_mute _ _

theorem changes_chainRun (who : Option Instr) (rs : List FxRef) (fs : List Frame) (s : State) :
    Changes who s (chainRun rs fs s).2 := by
  induction rs generalizing fs s with
  | nil => exact .refl
  | cons r rs ih => exact (changes_fxRun who s r fs).trans (ih _ _)

/-! ## FIFO and ring -/

theorem FifoOk.push {b : Word} {f : Fifo} (h : FifoOk b f) (fs : List Frame) : FifoOk b (fifoPush f fs) := by
  obtain ⟨hcap, hlen⟩ := h
  refine ⟨hcap, ?_⟩
  simp only [fifoPush, List.length_append, List.length_take]
  omega

theorem FifoOk.pop {b : Word} {f : Fifo} (h : FifoOk b f) (n : Nat) : FifoOk b (fifoPop f n) := by
  obtain ⟨hcap, hlen⟩ := h
  refine ⟨hcap, ?_⟩
  simp only [fifoPop, List.length_drop]
  omega

@[simp] theorem fifoFront_length (f : Fifo) (n : Nat) : (fifoFront f n).length = n := by
  simp only [fifoFront, List.length_append, List.length_take, silence_length]; omega

theorem RingOk.push {b : Word} {r : Ring} (h : RingOk b r) (vs : List Word) : RingOk b (ringPush r vs) := by
  induction vs generalizing r with
  | nil => exact h
  | cons v vs ih =>
    obtain ⟨hslots, hw, hr, hbuf⟩ := h
    exact ih ⟨hslots, Nat.mod_lt _ (by omega), hr, storeWf_storeSet v hbuf hw⟩

theorem RingOk.pull {b : Word} {r : Ring} (h : RingOk b r) (k : Nat) : RingOk b (ringPull k r).2 := by
  obtain ⟨hslots, hw, hr, hbuf⟩ := h
  obtain ⟨e1, e2, e3, -, -⟩ := ringPull_fields k r
  refine ⟨e1.trans hslots, by rw [e1, e2]; exact hw, ?_, by rw [e1, e3]; exact hbuf⟩
  rw [ringPull_rpos hr, e1]
  exact Nat.mod_lt _ (by omega)

theorem RingOk.counters {b : Word} {r : Ring} (h : RingOk b r) (o u : Word) :
    RingOk b { r with overflow := o, underflow := u } := h

theorem ringPull_length (k : Nat) (r : Ring) : (ringPull k r).1.length = k := by
  induction k generalizing r with
  | zero => rfl
  | succ k ih => exact congrArg (· + 1) (ih _)

end Sys2Proof.Machine
end

section
/-! How every command ends: one case split over the commands, from which each statement on all commands follows. -/

namespace Sys2Proof.Machine

open Relation (ReflTransGen)

/-! ## Ends of a command -/

/-- A create command's one change: its unit at creation values in the lowest free slot (10_state.md R55). -/
inductive Creates (i : Instr) (s : State) : State → Prop
  | osc {k : Nat} (hi : createdKind i = some .osc) (he : s.eng.state ≠ .uninit) (hk : freeSlot s.osc = some k) :
    Creates i s (s.setOsc k (newOsc s.eng.sr))
  | poly {k : Nat} (hi : createdKind i = some .poly) (he : s.eng.state ≠ .uninit) (hk : freeSlot s.poly = some k) :
    Creates i s (s.setPoly k (newPoly s.eng.sr))
  | env {k : Nat} (hi : createdKind i = some .env) (he : s.eng.state ≠ .uninit) (hk : freeSlot s.env = some k) :
    Creates i s (s.setEnv k (newEnv s.eng.sr))
  | epool {k : Nat} (hi : createdKind i = some .epool) (he : s.eng.state ≠ .uninit) (hk : freeSlot s.epool = some k) :
    Creates i s (s.setEpool k (newEpool s.eng.sr))
  | dly {k : Nat} (hi : createdKind i = some .dly) (he : s.eng.state ≠ .uninit) (hk : freeSlot s.dly = some k) :
    Creates i s (s.setDly k (newDly s.eng.sr))
  | flt {k : Nat} (hi : createdKind i = some .flt) (he : s.eng.state ≠ .uninit) (hk : freeSlot s.flt = some k) :
    Creates i s (s.setFlt k (newFlt s.eng.sr))
  | rev {k : Nat} (hi : createdKind i = some .rev) (he : s.eng.state ≠ .uninit) (hk : freeSlot s.rev = some k) :
    Creates i s (s.setRev k (newRev s.eng.sr))

/-- The state after ENG_INIT's checks pass, results aside (46_engine.md R580). -/
def initialised (s : State) : State :=
  ((((stopIfRunning s).setMixer newMixer).setFifo (newFifo s.args.a2)).setRing (newRing s.args.a2)).setEng
    (initEngine s.eng s.args.a0 s.args.a1 s.args.a2)

/-- A stop request made by an init takes a draw and changes nothing else (46_engine.md R583). -/
theorem stopIfRunning_eq (s : State) : ∃ d, stopIfRunning s = { s with draws := d } := by
  unfold stopIfRunning
  split
  · exact ⟨_, rfl⟩
  · exact ⟨s.draws, rfl⟩

theorem initialised_eq (s : State) : ∃ d, initialised s = { s with
    mixer := some newMixer, fifo := some (newFifo s.args.a2), ring := some (newRing s.args.a2)
    eng := initEngine s.eng s.args.a0 s.args.a1 s.args.a2, draws := d } := by
  obtain ⟨d, hd⟩ := stopIfRunning_eq s
  exact ⟨d, by rw [initialised, hd]; rfl⟩

/-- The result registers a command's rule does not define are 0 (10_state.md R57). -/
def ResultsFit (i : Instr) (r : Res) : Prop := ∀ w ∈ [r.r0, r.r1, r.r2, r.r3, r.r4, r.r5].drop (resultCount i), w = 0

theorem resultsFit_zero (i : Instr) : ResultsFit i resZero := by
  intro w hw
  simpa [resZero] using List.mem_of_mem_drop hw

theorem resultsFit_one {i : Instr} (hi : resultCount i = 1) (w : Word) : ResultsFit i (resOne w) := by
  simp [ResultsFit, resOne, hi]

/-- The ends of command `i` from `s`: a code raised with nothing else changed; the device's refusal; a unit created; an
init; or a run of elementary changes that is no create and no init. -/
inductive Ends (i : Instr) (s : State) : State → Prop
  | raised (e : ErrCode) : Ends i s (s.raise e (failResult i))
  | refused {u : State} (hi : i = .engStart ∨ i = .engStop) (hu : Changes (some i) s u) :
    Ends i s (u.raise .deviceError 0)
  | created {u : State} {r : Res} (hu : Creates i s u) (hr : ResultsFit i r) : Ends i s (u.succeed r)
  | inited (hi : i = .engInit) (hv : initValid s.args.a0 s.args.a1 s.args.a2 = true) :
    Ends i s ((initialised s).succeed (resOne (boolWord true)))
  | completed {u : State} {r : Res} (hu : Changes (some i) s u) (hr : ResultsFit i r) : Ends i s (u.succeed r)

/-- The shape of an inversion lemma: a code raised, or the checks passed. -/
theorem Ends.of_cases {i : Instr} {s t : State} {P : Prop} (h : (∃ e, t = s.raise e (failResult i)) ∨ P)
    (hp : P → Ends i s t) : Ends i s t := by
  rcases h with ⟨e, rfl⟩ | h
  · exact .raised e
  · exact hp h

theorem Ends.unchanged {i : Instr} {s : State} {r : Res} (hr : ResultsFit i r) : Ends i s (s.succeed r) :=
  .completed .refl hr

theorem Ends.changed {i : Instr} {s u : State} {r : Res} (h : Change (some i) s u) (hr : ResultsFit i r) :
    Ends i s (u.succeed r) := .completed (.single h) hr

theorem swinWritten_congr {i : Instr} {s t : State} (h : t.args = s.args) : swinWritten i t = swinWritten i s := by
  simp only [swinWritten, h]

/-- A run of changes that moves samples only, and then the words its command writes. -/
theorem Ends.wrote {i : Instr} {s u : State} {ws : List Word} {r : Res} (hu : Changes (some i) s u)
    (hargs : u.args = s.args) (hi : i ∈ sampleWriters) (hlen : ws.length = swinWritten i s)
    (hmax : ws.length ≤ Config.swinWords) (hr : ResultsFit i r) :
    Ends i s ((u.setSwin (u.swin.setWords 0 ws)).succeed r) :=
  .completed (hu.tail (.samples rfl hi (hlen.trans (swinWritten_congr hargs).symm) hmax)) hr

/-! ## Chains and channels a command makes -/

theorem ChainOk.add {s : State} {c : List FxRef} (h : ChainOk s c) {r : FxRef} (hr : r.live s) (hnew : r ∉ c)
    (hroom : c.length ≠ 8) : ChainOk s (c ++ [r]) := by
  obtain ⟨hnd, hlen, hlive⟩ := h
  have hmax : Config.maxChain = 8 := rfl
  refine ⟨hnd.append (List.nodup_singleton r) (by simpa using hnew), by simp; omega, fun q hq => ?_⟩
  rcases List.mem_append.1 hq with hq | hq
  · exact hlive q hq
  · rw [List.mem_singleton.1 hq]; exact hr

theorem ChainOk.remove {s : State} {c : List FxRef} (h : ChainOk s c) (r : FxRef) :
    ChainOk s (c.filter (fun q => !decide (q = r))) :=
  ⟨h.1.filter _, (List.length_filter_le _ _).trans h.2.1, fun q hq => h.2.2 q (List.mem_filter.1 hq).1⟩

/-- A new channel takes the next id, above every id in use (R476). -/
theorem MixerOk.addChannel {s : State} {m : Mixer} (h : MixerOk s m) (hroom : m.ch.length ≠ 8)
    (hid : m.nextId ≠ 0xFFFFFFFF#32) :
    MixerOk s { m with nextId := m.nextId + 1#32, ch := m.ch ++ [(m.nextId, newChannel)] } := by
  obtain ⟨hlen, hrise, hnext, hsrc⟩ := h
  have hmax : Config.mixMaxChannels = 8 := rfl
  have hsucc : (m.nextId + 1#32).toNat = m.nextId.toNat + 1 := by bv_omega
  refine ⟨by simp; omega, ?_, fun p hp => ?_, fun p hp r hr => ?_⟩
  · rw [List.pairwise_append]
    exact ⟨hrise, List.pairwise_singleton _ _, fun p hp q hq => by
      rw [List.mem_singleton.1 hq]; exact hnext p hp⟩
  · rcases List.mem_append.1 hp with hp | hp
    · have := hnext p hp; simp only [hsucc]; omega
    · rw [List.mem_singleton.1 hp]; simp only [hsucc]; omega
  · rcases List.mem_append.1 hp with hp | hp
    · exact hsrc p hp r hr
    · rw [List.mem_singleton.1 hp] at hr; cases hr

theorem MixerLegal.addChannel {m : Mixer} (h : MixerLegal m) (id id' : Word) :
    MixerLegal { m with nextId := id, ch := m.ch ++ [(id', newChannel)] } := by
  refine ⟨h.1, fun p hp => ?_⟩
  rcases List.mem_append.1 hp with hp | hp
  · exact h.2 p hp
  · rw [List.mem_singleton.1 hp]
    simp only [ChannelLegal, newChannel, InRange]; decide

theorem MixerOk.removeChannel {s : State} {m : Mixer} (h : MixerOk s m) (id : Word) :
    MixerOk s { m with ch := m.ch.filter (fun p => !decide (p.1 = id)) } :=
  ⟨(List.length_filter_le _ _).trans h.1, h.2.1.filter _, fun p hp => h.2.2.1 p (List.mem_filter.1 hp).1,
    fun p hp => h.2.2.2 p (List.mem_filter.1 hp).1⟩

theorem MixerLegal.removeChannel {m : Mixer} (h : MixerLegal m) (id : Word) :
    MixerLegal { m with ch := m.ch.filter (fun p => !decide (p.1 = id)) } :=
  ⟨h.1, fun p hp => h.2 p (List.mem_filter.1 hp).1⟩

theorem findChannel_filter (l : List (Word × Channel)) (id id' : Word) :
    findChannel (l.filter (fun p => !decide (p.1 = id))) id' = if id' = id then none else findChannel l id' := by
  induction l with
  | nil => simp [findChannel]
  | cons p t ih =>
    obtain ⟨k, c⟩ := p
    by_cases hk : k = id
    · subst hk
      rw [List.filter_cons_of_neg (by simp), ih, findChannel]
      by_cases he : id' = k
      · simp [he]
      · simp [he, Ne.symm he]
    · rw [List.filter_cons_of_pos (by simpa using hk), findChannel, ih, findChannel]
      by_cases he : k = id'
      · subst he; simp [hk]
      · simp [he]

theorem MutesFrom.removeChannel (m : Mixer) (id : Word) :
    MutesFrom m { m with ch := m.ch.filter (fun p => !decide (p.1 = id)) } := by
  intro id' c' h
  rw [findChannel_filter] at h
  split at h
  · cases h
  · exact ⟨c', h, rfl⟩

/-- One channel found and replaced by one with the same source or a live one. -/
theorem change_setChannel {who : Option Instr} {s : State} {m : Mixer} {id : Word} {c d : Channel}
    (hm : s.mixer = some m) (hc : findChannel m.ch id = some c)
    (hsrc : d.src = c.src ∨ ∃ r, d.src = some r ∧ r.live s) (hlegal : ChannelLegal c → ChannelLegal d)
    (hmute : who ≠ some .chSetMute → d.mute = c.mute) : Change who s (s.setMixer (m.setChannel id d)) := by
  refine .mixer hm (fun h => h.setChannel fun r hr => ?_) (fun h => h.setChannel (hlegal (h.channel hc)))
    fun hw _ => .setChannel hc (hmute hw)
  rcases hsrc with he | ⟨q, hq, hl⟩
  · exact h.src_live hc r (he ▸ hr)
  · rw [hq] at hr; cases hr; exact hl

/-! ## The case split -/

/-- Every command ends in one of the ways of `Ends`. -/
theorem exec_ends {i : Instr} {s t : State} (h : exec i s = .next t) : Ends i s t := by
  have hwords : Config.swinWords = 16384 := rfl
  cases i with
  | nop => rw [execNop_cases h]; exact .unchanged (resultsFit_zero _)
  | oscCreate =>
    refine .of_cases (execOscCreate_cases h) ?_
    rintro ⟨k, he, hk, rfl⟩; exact .created (.osc rfl he hk) (resultsFit_one rfl _)
  | oscSetFreq =>
    refine .of_cases (execOscSetFreq_cases h) ?_
    rintro ⟨k, u, -, hu, hv, rfl⟩; exact .changed (.osc hu (keeps_oscSetFreq hv)) (resultsFit_zero _)
  | oscSetAmp =>
    refine .of_cases (execOscSetAmp_cases h) ?_
    rintro ⟨k, u, -, hu, hv, rfl⟩; exact .changed (.osc hu (keeps_oscSetAmp hv)) (resultsFit_zero _)
  | oscSetWave =>
    refine .of_cases (execOscSetWave_cases h) ?_
    rintro ⟨k, u, w, -, hu, -, rfl⟩; exact .changed (.osc hu (keeps_oscSetWave u w)) (resultsFit_zero _)
  | polyCreate =>
    refine .of_cases (execPolyCreate_cases h) ?_
    rintro ⟨k, he, hk, rfl⟩; exact .created (.poly rfl he hk) (resultsFit_one rfl _)
  | polyNoteOn =>
    refine .of_cases (execPolyNoteOn_cases h) ?_
    rintro ⟨k, u, note, -, hu, -, rfl⟩; exact .changed (.poly hu (keeps_polyNoteOn u note _)) (resultsFit_one rfl _)
  | polyNoteOff =>
    refine .of_cases (execPolyNoteOff_cases h) ?_
    rintro ⟨k, u, note, -, hu, -, ⟨j, -, rfl⟩ | ⟨-, rfl⟩⟩
    · exact .changed (.poly hu (keeps_polyNoteOff u j)) (resultsFit_one rfl _)
    · exact .unchanged (resultsFit_one rfl _)
  | polySetWave =>
    refine .of_cases (execPolySetWave_cases h) ?_
    rintro ⟨k, u, w, -, hu, -, rfl⟩; exact .changed (.poly hu (keeps_polySetWave u w)) (resultsFit_zero _)
  | envCreate =>
    refine .of_cases (execEnvCreate_cases h) ?_
    rintro ⟨k, he, hk, rfl⟩; exact .created (.env rfl he hk) (resultsFit_one rfl _)
  | envSetAttack =>
    refine .of_cases (execEnvSetAttack_cases h) ?_
    rintro ⟨k, u, -, hu, hv, rfl⟩; exact .changed (.env hu (keeps_envSetAttackT hv u)) (resultsFit_zero _)
  | envSetDecay =>
    refine .of_cases (execEnvSetDecay_cases h) ?_
    rintro ⟨k, u, -, hu, hv, rfl⟩; exact .changed (.env hu (keeps_envSetDecayT hv u)) (resultsFit_zero _)
  | envSetSustain =>
    refine .of_cases (execEnvSetSustain_cases h) ?_
    rintro ⟨k, u, -, hu, hv, rfl⟩; exact .changed (.env hu (keeps_envSetSustainL hv u)) (resultsFit_zero _)
  | envSetRelease =>
    refine .of_cases (execEnvSetRelease_cases h) ?_
    rintro ⟨k, u, -, hu, hv, rfl⟩; exact .changed (.env hu (keeps_envSetReleaseT hv u)) (resultsFit_zero _)
  | envNoteOn =>
    refine .of_cases (execEnvNoteOn_cases h) ?_
    rintro ⟨k, u, -, hu, rfl⟩; exact .changed (.env hu (keeps_envOn u)) (resultsFit_zero _)
  | envNoteOff =>
    refine .of_cases (execEnvNoteOff_cases h) ?_
    rintro ⟨k, u, -, hu, rfl⟩; exact .changed (.env hu (keeps_envOff u)) (resultsFit_zero _)
  | envGet =>
    refine .of_cases (execEnvGet_cases h) ?_
    rintro ⟨k, u, -, -, rfl⟩; exact .unchanged (by simp [ResultsFit, resultCount, resZero])
  | epoolCreate =>
    refine .of_cases (execEpoolCreate_cases h) ?_
    rintro ⟨k, he, hk, rfl⟩; exact .created (.epool rfl he hk) (resultsFit_one rfl _)
  | epoolNoteOn =>
    refine .of_cases (execEpoolNoteOn_cases h) ?_
    rintro ⟨k, u, note, -, hu, -, rfl⟩; exact .changed (.epool hu (keeps_epoolNoteOn u note)) (resultsFit_one rfl _)
  | epoolNoteOff =>
    refine .of_cases (execEpoolNoteOff_cases h) ?_
    rintro ⟨k, u, note, -, hu, -, ⟨j, -, rfl⟩ | ⟨-, rfl⟩⟩
    · exact .changed (.epool hu (keeps_epoolNoteOff u j)) (resultsFit_one rfl _)
    · exact .unchanged (resultsFit_one rfl _)
  | epoolSet =>
    refine .of_cases (execEpoolSet_cases h) ?_
    rintro ⟨k, u, -, hu, -, hv, rfl⟩
    exact .changed (.epool hu (keeps_members_map (keeps_envSetBy hv _) (envSetBy_sr _ _) u)) (resultsFit_zero _)
  | epoolAdvance =>
    refine .of_cases (execEpoolAdvance_cases h) ?_
    rintro ⟨k, u, -, hu, -, rfl⟩
    exact .changed (.epool hu (keeps_members_map (keeps_envSteps _) (envSteps_sr _) u)) (resultsFit_zero _)
  | epoolGet =>
    refine .of_cases (execEpoolGet_cases h) ?_
    rintro ⟨k, u, m, -, -, -, -, rfl⟩; exact .unchanged (by simp [ResultsFit, resultCount, resZero])
  | dlyCreate =>
    refine .of_cases (execDlyCreate_cases h) ?_
    rintro ⟨k, he, hk, rfl⟩; exact .created (.dly rfl he hk) (resultsFit_one rfl _)
  | dlySetTime =>
    refine .of_cases (execDlySetTime_cases h) ?_
    rintro ⟨k, u, -, hu, hv, rfl⟩; exact .changed (.dly hu (keeps_dlySetTime hv) fun _ => rfl) (resultsFit_zero _)
  | dlySetFeedback =>
    refine .of_cases (execDlySetFeedback_cases h) ?_
    rintro ⟨k, u, -, hu, hv, rfl⟩; exact .changed (.dly hu (keeps_dlySetFeedback hv) fun _ => rfl) (resultsFit_zero _)
  | fltCreate =>
    refine .of_cases (execFltCreate_cases h) ?_
    rintro ⟨k, he, hk, rfl⟩; exact .created (.flt rfl he hk) (resultsFit_one rfl _)
  | fltSetMode =>
    refine .of_cases (execFltSetMode_cases h) ?_
    rintro ⟨k, u, w, -, hu, -, rfl⟩; exact .changed (.flt hu (keeps_fltSetMode u w) fun _ => rfl) (resultsFit_zero _)
  | fltSetCutoff =>
    refine .of_cases (execFltSetCutoff_cases h) ?_
    rintro ⟨k, u, -, hu, hv, rfl⟩; exact .changed (.flt hu (keeps_fltSetCutoff hv) fun _ => rfl) (resultsFit_zero _)
  | fltSetQ =>
    refine .of_cases (execFltSetQ_cases h) ?_
    rintro ⟨k, u, -, hu, hv, rfl⟩; exact .changed (.flt hu (keeps_fltSetQ hv) fun _ => rfl) (resultsFit_zero _)
  | revCreate =>
    refine .of_cases (execRevCreate_cases h) ?_
    rintro ⟨k, he, hk, rfl⟩; exact .created (.rev rfl he hk) (resultsFit_one rfl _)
  | revSetRoom =>
    refine .of_cases (execRevSetRoom_cases h) ?_
    rintro ⟨k, u, -, hu, hv, rfl⟩; exact .changed (.rev hu (keeps_revSetRoom hv) fun _ => rfl) (resultsFit_zero _)
  | revSetDecay =>
    refine .of_cases (execRevSetDecay_cases h) ?_
    rintro ⟨k, u, -, hu, hv, rfl⟩; exact .changed (.rev hu (keeps_revSetDecay hv) fun _ => rfl) (resultsFit_zero _)
  | fxSetDry =>
    refine .of_cases (execFxSetDry_cases h) ?_
    rintro ⟨r, -, -, hv, rfl⟩
    exact .completed (changes_setFxMix s r (fun _ hm => ⟨B32.clamp_inRange hv (by decide), hm.2⟩) fun _ _ => rfl)
      (resultsFit_zero _)
  | fxSetWet =>
    refine .of_cases (execFxSetWet_cases h) ?_
    rintro ⟨r, -, -, hv, rfl⟩
    exact .completed (changes_setFxMix s r (fun _ hm => ⟨hm.1, B32.clamp_inRange hv (by decide)⟩) fun _ _ => rfl)
      (resultsFit_zero _)
  | fxSetBypass =>
    refine .of_cases (execFxSetBypass_cases h) ?_
    rintro ⟨r, -, -, -, rfl⟩
    exact .completed (changes_setFxMix s r (fun _ hm => hm) fun hw => absurd rfl hw) (resultsFit_zero _)
  | fxProcess =>
    refine .of_cases (execFxProcess_cases h) ?_
    rintro ⟨r, -, -, hn, rfl⟩
    exact .wrote (changes_fxRun _ s r _) (samplesMoved_fxRun s r _).args (by decide) (by simp [swinWritten])
      (by simp; omega) (resultsFit_zero _)
  | mixAddChannel =>
    refine .of_cases (execMixAddChannel_cases h) ?_
    rintro ⟨m, hm, hroom, hid, rfl⟩
    exact .changed (.mixer hm (fun hok => hok.addChannel hroom hid) (fun hl => hl.addChannel _ _)
      fun _ hw => absurd rfl hw) (resultsFit_one rfl _)
  | mixRemoveChannel =>
    refine .of_cases (execMixRemoveChannel_cases h) ?_
    rintro ⟨m, c, hm, -, rfl⟩
    exact .changed (.mixer hm (fun hok => hok.removeChannel _) (fun hl => hl.removeChannel _)
      fun _ _ => .removeChannel m _) (resultsFit_one rfl _)
  | chConnect =>
    refine .of_cases (execChConnect_cases h) ?_
    rintro ⟨m, r, c, hm, -, hr, hc, rfl⟩
    exact .changed (change_setChannel hm hc (.inr ⟨r, rfl, hr⟩) id fun _ => rfl) (resultsFit_one rfl _)
  | chSetVolume =>
    refine .of_cases (execChSetVolume_cases h) ?_
    rintro ⟨m, c, hm, hc, hv, -, -, rfl⟩
    exact .changed (change_setChannel hm hc (.inl rfl)
      (fun hl => ⟨by simpa using B32.clamp_inRange hv (by decide), hl.2⟩) fun _ => rfl) (resultsFit_zero _)
  | chSetPan =>
    refine .of_cases (execChSetPan_cases h) ?_
    rintro ⟨m, c, hm, hc, hv, -, -, rfl⟩
    exact .changed (change_setChannel hm hc (.inl rfl)
      (fun hl => ⟨hl.1, by simpa using B32.clamp_inRange hv (by decide)⟩) fun _ => rfl) (resultsFit_zero _)
  | chSetMute =>
    refine .of_cases (execChSetMute_cases h) ?_
    rintro ⟨m, c, hm, hc, -, rfl⟩
    exact .changed (change_setChannel hm hc (.inl rfl) id fun hw => absurd rfl hw) (resultsFit_zero _)
  | mixSetMaster =>
    refine .of_cases (execMixSetMaster_cases h) ?_
    rintro ⟨m, hm, hv, rfl⟩
    exact .changed (.mixer hm id (fun hl => ⟨B32.clamp_inRange hv (by decide), hl.2⟩) fun _ _ => .refl m)
      (resultsFit_zero _)
  | mixGenerate =>
    refine .of_cases (execMixGenerate_cases h) ?_
    rintro ⟨m, hm, hn, rfl⟩
    exact .wrote (changes_mixGen _ hm _) (samplesMoved_mixGen hm _).args (by decide) (by simp [swinWritten])
      (by simp; omega) (resultsFit_zero _)
  | srcGenerate =>
    refine .of_cases (execSrcGenerate_cases h) ?_
    rintro ⟨r, -, -, hn, rfl⟩
    exact .wrote (changes_srcGen _ s r _) (samplesMoved_srcGen s r _).args (by decide) (by simp [swinWritten])
      (by simp; omega) (resultsFit_zero _)
  | fifoWrite =>
    refine .of_cases (execFifoWrite_cases h) ?_
    rintro ⟨f, hf, -, rfl⟩; exact .changed (.fifo hf fun _ hok => hok.push _) (resultsFit_one rfl _)
  | fifoRead =>
    refine .of_cases (execFifoRead_cases h) ?_
    rintro ⟨f, hf, hn, rfl⟩
    exact .wrote (.single (.fifo hf fun _ hok => hok.pop _)) rfl (by decide) (by simp [swinWritten])
      (by simp; omega) (resultsFit_one rfl _)
  | fifoPeek =>
    refine .of_cases (execFifoPeek_cases h) ?_
    rintro ⟨f, hf, hn, rfl⟩
    exact .wrote .refl rfl (by decide) (by simp [swinWritten]) (by simp; omega) (resultsFit_one rfl _)
  | fifoMetrics =>
    refine .of_cases (execFifoMetrics_cases h) ?_
    rintro ⟨f, -, rfl⟩; exact .unchanged (by simp [ResultsFit, resultCount, resZero])
  | ringWrite =>
    refine .of_cases (execRingWrite_cases h) ?_
    rintro ⟨r, hr, -, rfl⟩
    exact .changed (.ring hr fun _ hok => (hok.push _).counters _ _) (resultsFit_one rfl _)
  | ringRead =>
    refine .of_cases (execRingRead_cases h) ?_
    rintro ⟨r, hr, hn, rfl⟩
    exact .wrote (.single (.ring hr fun _ hok => (hok.pull _).counters _ _)) rfl (by decide)
      (by simp [swinWritten, ringPull_length]) (by simp [ringPull_length]; omega) (resultsFit_one rfl _)
  | ringMetrics =>
    refine .of_cases (execRingMetrics_cases h) ?_
    rintro ⟨r, -, rfl⟩; exact .unchanged (by simp [ResultsFit, resultCount, resZero])
  | engInit =>
    rcases execEngInit_cases h with ⟨-, rfl⟩ | ⟨hv, rfl⟩
    · exact .raised _
    · exact .inited rfl hv
  | engStart =>
    rcases execEngStart_cases h with ⟨-, rfl⟩ | ⟨-, rfl⟩ | ⟨hs, -, rfl⟩ | ⟨hs, -, rfl⟩
    · exact .raised _
    · exact .unchanged (resultsFit_one rfl _)
    · exact .completed (.tail (.single (.draws _)) (.runState (.inl rfl) (by simp [hs]) (by decide)))
        (resultsFit_one rfl _)
    · exact .refused (.inl rfl) (.single (.draws _))
  | engStop =>
    rcases execEngStop_cases h with ⟨-, rfl⟩ | ⟨hs, -, rfl⟩ | ⟨hs, -, rfl⟩
    · exact .unchanged (resultsFit_one rfl _)
    · exact .completed (.tail (.single (.draws _)) (.runState (.inr rfl) (by simp [hs]) (by decide)))
        (resultsFit_one rfl _)
    · exact .refused (.inr rfl) (.tail (.single (.draws _)) (.runState (.inr rfl) (by simp [hs]) (by decide)))
  | engGetMetrics => rw [execEngGetMetrics_cases h]; exact .unchanged (by simp [ResultsFit, resultCount, resZero])
  | engAddProc =>
    refine .of_cases (execEngAddProc_cases h) ?_
    rintro ⟨r, -, hr, hnew, hroom, rfl⟩
    exact .changed (.chain fun hok => hok.add hr hnew hroom) (resultsFit_one rfl _)
  | engRemoveProc =>
    refine .of_cases (execEngRemoveProc_cases h) ?_
    rintro ⟨r, -, -, ⟨-, rfl⟩ | ⟨-, rfl⟩⟩
    · exact .changed (.chain fun hok => hok.remove r) (resultsFit_one rfl _)
    · exact .unchanged (resultsFit_one rfl _)

/-! ## What every command keeps, and what every frame request keeps -/

theorem Change.args {who : Option Instr} {s t : State} (h : Change who s t) : t.args = s.args := by cases h <;> rfl

theorem Creates.args {i : Instr} {s t : State} (h : Creates i s t) : t.args = s.args := by cases h <;> rfl

/-- A property that each elementary change keeps, given the arguments the command started with, holds after a run. -/
theorem Changes.preserves {who : Option Instr} {P : State → Prop} {s t : State} (h : Changes who s t) (hs : P s)
    (hchange : ∀ u v, u.args = s.args → Change who u v → P u → P v) : t.args = s.args ∧ P t := by
  induction h with
  | refl => exact ⟨rfl, hs⟩
  | tail _ hc ih => exact ⟨hc.args.trans ih.1, hchange _ _ ih.1 hc ih.2⟩

/-- A property that does not look at STATUS.ERR and RES holds after a command when each of its changes keeps it. -/
theorem exec_preserves {P : State → Prop} {i : Instr} {s t : State} (h : exec i s = .next t) (hs : P s)
    (hsucceed : ∀ u r, P u → P (u.succeed r)) (hraise : ∀ u e r0, P u → P (u.raise e r0))
    (hchange : ∀ u v, u.args = s.args → Change (some i) u v → P u → P v) (hcreate : ∀ u, Creates i s u → P u)
    (hinit : i = .engInit → initValid s.args.a0 s.args.a1 s.args.a2 = true → P (initialised s)) : P t := by
  cases exec_ends h with
  | raised e => exact hraise _ _ _ hs
  | refused _ hu => exact hraise _ _ _ (hu.preserves hs hchange).2
  | created hu _ => exact hsucceed _ _ (hcreate _ hu)
  | inited hi hv => exact hsucceed _ _ (hinit hi hv)
  | completed hu _ => exact hsucceed _ _ (hu.preserves hs hchange).2

/-- A frame request's change of the engine record: the metrics move (46_engine.md R590-R592). -/
structure MetricsMove (e e' : Engine) : Prop where
  state : e'.state = e.state
  sr : e'.sr = e.sr
  ch : e'.ch = e.ch
  bufsz : e'.bufsz = e.bufsz
  underruns : e.underruns.toNat ≤ e'.underruns.toNat
  latency : e'.latency = e.latency ∨ e'.latency = latencyMs e.bufsz e.sr

theorem le_satInc (w : Word) : w.toNat ≤ (satInc w).toNat := by rw [satInc_toNat]; omega

theorem metricsMove_errorPath (s : State) (n : Nat) : MetricsMove s.eng (errorPath s n).eng :=
  ⟨rfl, rfl, rfl, rfl, le_satInc _, .inl rfl⟩

/-- A property that each elementary change and each move of the metrics keeps holds after a frame request. -/
theorem frameRequest_preserves {P : State → Prop} {s : State} (hs : P s)
    (hchange : ∀ u v, Change none u v → P u → P v)
    (hmetrics : ∀ u out e draws, MetricsMove u.eng e → P u → P { u with out := out, eng := e, draws := draws })
    (n : Nat) : P (frameRequest s n) := by
  have hdraw : P (drawCpuLoad s) := hmetrics s s.out _ _ ⟨rfl, rfl, rfl, rfl, le_refl _, .inl rfl⟩ hs
  have herror : ∀ u, P u → P (errorPath u n) := fun u hu =>
    hmetrics u _ _ u.draws (metricsMove_errorPath u n) hu
  rcases frameRequest_cases s n with ⟨-, he⟩ | ⟨-, he⟩ | ⟨-, -, -, m, hm, he⟩ <;> rw [he]
  · exact hs
  · exact herror _ hdraw
  · have hblock : Changes none (drawCpuLoad s) (frameBlock (drawCpuLoad s) m n).2 :=
      (changes_mixGen none (s := drawCpuLoad s) hm n).trans (changes_chainRun none _ _ _)
    have hu := (hblock.preserves hdraw fun u v _ => hchange u v).2
    unfold frameEnd
    split
    · exact hmetrics _ _ _ _ ⟨rfl, rfl, rfl, rfl, le_refl _, .inr (by simp only)⟩ hu
    · exact herror _ hu

end Sys2Proof.Machine
end

section
/-! The structure and the legal values of the state are invariants: each elementary change keeps them, so every command,
frame request and bus access does (10_state.md R50-R80). -/

namespace Sys2Proof.Machine

open Relation (ReflTransGen)

/-! ## References stay live -/

/-- Every slot allocated in `s` is allocated in `t`. -/
def Grows (s t : State) : Prop := ∀ k j, allocated s k j = true → allocated t k j = true

theorem SrcRef.live_of_grows {s t : State} (h : Grows s t) {r : SrcRef} (hr : r.live s) : r.live t := by
  cases r <;> exact ⟨hr.1, h _ _ hr.2⟩

theorem FxRef.live_of_grows {s t : State} (h : Grows s t) {r : FxRef} (hr : r.live s) : r.live t := by
  cases r <;> exact ⟨hr.1, h _ _ hr.2⟩

theorem MixerOk.of_grows {s t : State} (h : Grows s t) {m : Mixer} (hm : MixerOk s m) : MixerOk t m :=
  ⟨hm.1, hm.2.1, hm.2.2.1, fun p hp r hr => SrcRef.live_of_grows h (hm.2.2.2 p hp r hr)⟩

theorem ChainOk.of_grows {s t : State} (h : Grows s t) {c : List FxRef} (hc : ChainOk s c) : ChainOk t c :=
  ⟨hc.1, hc.2.1, fun r hr => FxRef.live_of_grows h (hc.2.2 r hr)⟩

/-- Storing a record frees no slot of a pool. -/
theorem poolSet_isSome {α : Type} {p : List (Option α)} {j : Nat} (h : (poolGet p j).isSome = true) (k : Nat) (u : α) :
    (poolGet (poolSet p k u) j).isSome = true := by
  rw [poolGet_poolSet]; split
  · rfl
  · exact h

theorem grows_setOsc (s : State) (k : Nat) (u : Osc) : Grows s (s.setOsc k u) := by
  intro kind j h
  cases kind
  case osc => exact poolSet_isSome h k u
  all_goals exact h

theorem grows_setPoly (s : State) (k : Nat) (u : Poly) : Grows s (s.setPoly k u) := by
  intro kind j h
  cases kind
  case poly => exact poolSet_isSome h k u
  all_goals exact h

theorem grows_setEnv (s : State) (k : Nat) (u : Env) : Grows s (s.setEnv k u) := by
  intro kind j h
  cases kind
  case env => exact poolSet_isSome h k u
  all_goals exact h

theorem grows_setEpool (s : State) (k : Nat) (u : EPool) : Grows s (s.setEpool k u) := by
  intro kind j h
  cases kind
  case epool => exact poolSet_isSome h k u
  all_goals exact h

theorem grows_setDly (s : State) (k : Nat) (u : Dly) : Grows s (s.setDly k u) := by
  intro kind j h
  cases kind
  case dly => exact poolSet_isSome h k u
  all_goals exact h

theorem grows_setFlt (s : State) (k : Nat) (u : Flt) : Grows s (s.setFlt k u) := by
  intro kind j h
  cases kind
  case flt => exact poolSet_isSome h k u
  all_goals exact h

theorem grows_setRev (s : State) (k : Nat) (u : Rev) : Grows s (s.setRev k u) := by
  intro kind j h
  cases kind
  case rev => exact poolSet_isSome h k u
  all_goals exact h

/-! ## Storing a record in a pool -/

theorem PoolOk.set {α : Type} {size : Nat} {ok : α → Prop} {p : List (Option α)} (h : PoolOk size ok p) {u : α}
    (hu : ok u) (k : Nat) : PoolOk size ok (poolSet p k u) :=
  ⟨(poolSet_length p k u).trans h.1, fun v hv => (mem_poolSet hv).elim (fun e => e ▸ hu) (h.2 v)⟩

theorem forall_mem_poolSet {α : Type} {P : α → Prop} {p : List (Option α)} (h : ∀ v, some v ∈ p → P v) {u : α} (hu : P u)
    (k : Nat) : ∀ v, some v ∈ poolSet p k u → P v :=
  fun v hv => (mem_poolSet hv).elim (fun e => e ▸ hu) (h v)

section SetRecord

variable {s : State} (k : Nat)

theorem Sound.setOsc (h : Sound s) {u : Osc} (hu : OscOk u) : Sound (s.setOsc k u) :=
  have g := grows_setOsc s k u
  ⟨h.swin, h.osc.set hu k, h.poly, h.env, h.epool, h.dly, h.flt, h.rev, fun m hm => (h.mixer m hm).of_grows g, h.fifo,
    h.ring, ChainOk.of_grows g h.chain, h.engine⟩

theorem Sound.setPoly (h : Sound s) {u : Poly} (hu : PolyOk u) : Sound (s.setPoly k u) :=
  have g := grows_setPoly s k u
  ⟨h.swin, h.osc, h.poly.set hu k, h.env, h.epool, h.dly, h.flt, h.rev, fun m hm => (h.mixer m hm).of_grows g, h.fifo,
    h.ring, ChainOk.of_grows g h.chain, h.engine⟩

theorem Sound.setEnv (h : Sound s) {u : Env} (hu : EnvOk u) : Sound (s.setEnv k u) :=
  have g := grows_setEnv s k u
  ⟨h.swin, h.osc, h.poly, h.env.set hu k, h.epool, h.dly, h.flt, h.rev, fun m hm => (h.mixer m hm).of_grows g, h.fifo,
    h.ring, ChainOk.of_grows g h.chain, h.engine⟩

theorem Sound.setEpool (h : Sound s) {u : EPool} (hu : EPoolOk u) : Sound (s.setEpool k u) :=
  have g := grows_setEpool s k u
  ⟨h.swin, h.osc, h.poly, h.env, h.epool.set hu k, h.dly, h.flt, h.rev, fun m hm => (h.mixer m hm).of_grows g, h.fifo,
    h.ring, ChainOk.of_grows g h.chain, h.engine⟩

theorem Sound.setDly (h : Sound s) {u : Dly} (hu : DlyOk u) : Sound (s.setDly k u) :=
  have g := grows_setDly s k u
  ⟨h.swin, h.osc, h.poly, h.env, h.epool, h.dly.set hu k, h.flt, h.rev, fun m hm => (h.mixer m hm).of_grows g, h.fifo,
    h.ring, ChainOk.of_grows g h.chain, h.engine⟩

theorem Sound.setFlt (h : Sound s) {u : Flt} (hu : FltOk u) : Sound (s.setFlt k u) :=
  have g := grows_setFlt s k u
  ⟨h.swin, h.osc, h.poly, h.env, h.epool, h.dly, h.flt.set hu k, h.rev, fun m hm => (h.mixer m hm).of_grows g, h.fifo,
    h.ring, ChainOk.of_grows g h.chain, h.engine⟩

theorem Sound.setRev (h : Sound s) {u : Rev} (hu : RevOk u) : Sound (s.setRev k u) :=
  have g := grows_setRev s k u
  ⟨h.swin, h.osc, h.poly, h.env, h.epool, h.dly, h.flt, h.rev.set hu k, fun m hm => (h.mixer m hm).of_grows g, h.fifo,
    h.ring, ChainOk.of_grows g h.chain, h.engine⟩

theorem Legal.setOsc (h : Legal s) {u : Osc} (hu : OscLegal u) : Legal (s.setOsc k u) :=
  ⟨forall_mem_poolSet h.osc hu k, h.poly, h.env, h.epool, h.dly, h.flt, h.rev, h.mixer⟩

theorem Legal.setPoly (h : Legal s) {u : Poly} (hu : PolyLegal u) : Legal (s.setPoly k u) :=
  ⟨h.osc, forall_mem_poolSet h.poly hu k, h.env, h.epool, h.dly, h.flt, h.rev, h.mixer⟩

theorem Legal.setEnv (h : Legal s) {u : Env} (hu : EnvLegal u) : Legal (s.setEnv k u) :=
  ⟨h.osc, h.poly, forall_mem_poolSet h.env hu k, h.epool, h.dly, h.flt, h.rev, h.mixer⟩

theorem Legal.setEpool (h : Legal s) {u : EPool} (hu : EPoolLegal u) : Legal (s.setEpool k u) :=
  ⟨h.osc, h.poly, h.env, forall_mem_poolSet h.epool hu k, h.dly, h.flt, h.rev, h.mixer⟩

theorem Legal.setDly (h : Legal s) {u : Dly} (hu : DlyLegal u) : Legal (s.setDly k u) :=
  ⟨h.osc, h.poly, h.env, h.epool, forall_mem_poolSet h.dly hu k, h.flt, h.rev, h.mixer⟩

theorem Legal.setFlt (h : Legal s) {u : Flt} (hu : FltLegal u) : Legal (s.setFlt k u) :=
  ⟨h.osc, h.poly, h.env, h.epool, h.dly, forall_mem_poolSet h.flt hu k, h.rev, h.mixer⟩

theorem Legal.setRev (h : Legal s) {u : Rev} (hu : RevLegal u) : Legal (s.setRev k u) :=
  ⟨h.osc, h.poly, h.env, h.epool, h.dly, h.flt, forall_mem_poolSet h.rev hu k, h.mixer⟩

/-- A record replaced by one that its kind's `Keeps` allows. -/
theorem keeps_poolGet {α : Type} {size : Nat} {ok legal : α → Prop} {p : List (Option α)} (hp : PoolOk size ok p) {u v : α}
    {k : Nat} (hu : poolGet p k = some u) (hv : Keeps ok legal u v) :
    ok v ∧ ((∀ w, some w ∈ p → legal w) → legal v) :=
  have h := hv (hp.2 u (poolGet_mem hu))
  ⟨h.1, fun hl => h.2 (hl u (poolGet_mem hu))⟩

end SetRecord

/-! ## The other named updates -/

theorem eq_none_congr {α : Type} {x y : Option α} (h : x.isSome = y.isSome) : x = none ↔ y = none := by
  rw [← Option.not_isSome_iff_eq_none, ← Option.not_isSome_iff_eq_none, h]

/-- EngineOk reads the engine record and which of MIXER, FIFO and RING are present. -/
theorem EngineOk.of_isSome {s t : State} (h : EngineOk s) (he : t.eng = s.eng) (hm : t.mixer.isSome = s.mixer.isSome)
    (hf : t.fifo.isSome = s.fifo.isSome) (hr : t.ring.isSome = s.ring.isSome) : EngineOk t := by
  rw [EngineOk, he, hm, hf, hr, eq_none_congr hm, eq_none_congr hf, eq_none_congr hr]
  exact h

section Update

variable {s : State} (h : Sound s)
include h

theorem Sound.setMixer {m m' : Mixer} (hm : s.mixer = some m) (hok : MixerOk s m → MixerOk s m') :
    Sound (s.setMixer m') := by
  refine ⟨h.swin, h.osc, h.poly, h.env, h.epool, h.dly, h.flt, h.rev, fun n hn => ?_, h.fifo, h.ring, h.chain,
    h.engine.of_isSome rfl (by rw [hm]; rfl) rfl rfl⟩
  cases hn
  exact hok (h.mixer m hm)

theorem Sound.setFifo {f f' : Fifo} (hf : s.fifo = some f) (hok : ∀ bufsz, FifoOk bufsz f → FifoOk bufsz f') :
    Sound (s.setFifo f') := by
  refine ⟨h.swin, h.osc, h.poly, h.env, h.epool, h.dly, h.flt, h.rev, h.mixer, fun n hn => ?_, h.ring, h.chain,
    h.engine.of_isSome rfl rfl (by rw [hf]; rfl) rfl⟩
  cases hn
  exact hok _ (h.fifo f hf)

theorem Sound.setRing {r r' : Ring} (hr : s.ring = some r) (hok : ∀ bufsz, RingOk bufsz r → RingOk bufsz r') :
    Sound (s.setRing r') := by
  refine ⟨h.swin, h.osc, h.poly, h.env, h.epool, h.dly, h.flt, h.rev, h.mixer, h.fifo, fun n hn => ?_, h.chain,
    h.engine.of_isSome rfl rfl rfl (by rw [hr]; rfl)⟩
  cases hn
  exact hok _ (h.ring r hr)

theorem Sound.setChain {c : List FxRef} (hok : ChainOk s s.chain → ChainOk s c) : Sound (s.setChain c) :=
  ⟨h.swin, h.osc, h.poly, h.env, h.epool, h.dly, h.flt, h.rev, h.mixer, h.fifo, h.ring, hok h.chain, h.engine⟩

theorem Sound.setWords {j : Nat} {ws : List Word} (hj : j + ws.length ≤ Config.swinWords) :
    Sound (s.setSwin (s.swin.setWords j ws)) :=
  ⟨Memory.wf_setWords h.swin hj, h.osc, h.poly, h.env, h.epool, h.dly, h.flt, h.rev, h.mixer, h.fifo, h.ring, h.chain,
    h.engine⟩

/-- The run state moves between STOPPED and RUNNING, metrics move, and the latency stays that of the configuration. -/
theorem Sound.setEng {e : Engine} (hst : e.state = .uninit ↔ s.eng.state = .uninit) (hsr : e.sr = s.eng.sr)
    (hch : e.ch = s.eng.ch) (hbs : e.bufsz = s.eng.bufsz)
    (hlat : e.latency = s.eng.latency ∨ e.latency = latencyMs s.eng.bufsz s.eng.sr) : Sound (s.setEng e) := by
  refine ⟨h.swin, h.osc, h.poly, h.env, h.epool, h.dly, h.flt, h.rev, h.mixer, fun f hf => ?_, fun r hr => ?_,
    h.chain, ?_⟩
  · simpa only [State.setEng_eng, hbs] using h.fifo f hf
  · simpa only [State.setEng_eng, hbs] using h.ring r hr
  · obtain ⟨hun, hin⟩ := h.engine
    simp only [EngineOk, State.setEng_eng, State.setEng_mixer, State.setEng_fifo, State.setEng_ring, ne_eq, hst, hsr, hch,
      hbs]
    refine ⟨hun, fun hne => ?_⟩
    obtain ⟨hv, hl, hpresent⟩ := hin hne
    exact ⟨hv, hlat.elim (·.trans hl) id, hpresent⟩

/-- An initialised engine has a rate of the range. -/
theorem Sound.rateOk (he : s.eng.state ≠ .uninit) : RateOk s.eng.sr := by
  have hv := (h.engine.2 he).1
  simp only [initValid, Bool.and_eq_true, decide_eq_true_eq] at hv
  exact hv.1.1.1

end Update

/-- `t` is `s` but for the command port, the pending inputs, the data the outside agents see and the draw counters. -/
def SameBlock (s t : State) : Prop :=
  ∃ cmd args err res cpBase inputs rdata out draws,
    t = { s with
      cmd := cmd, args := args, err := err, res := res, cpBase := cpBase, inputs := inputs, rdata := rdata, out := out
      draws := draws }

theorem SameBlock.sound {s t : State} (h : SameBlock s t) (hs : Sound s) : Sound t := by
  obtain ⟨cmd, args, err, res, cpBase, inputs, rdata, out, draws, rfl⟩ := h
  exact ⟨hs.swin, hs.osc, hs.poly, hs.env, hs.epool, hs.dly, hs.flt, hs.rev, hs.mixer, hs.fifo, hs.ring, hs.chain,
    hs.engine⟩

theorem SameBlock.legal {s t : State} (h : SameBlock s t) (hl : Legal s) : Legal t := by
  obtain ⟨cmd, args, err, res, cpBase, inputs, rdata, out, draws, rfl⟩ := h
  exact ⟨hl.osc, hl.poly, hl.env, hl.epool, hl.dly, hl.flt, hl.rev, hl.mixer⟩

theorem SameBlock.keeps {s t : State} (h : SameBlock s t) : Keeps Sound Legal s t := fun hs => ⟨h.sound hs, h.legal⟩

theorem sameBlock_succeed (s : State) (r : Res) : SameBlock s (s.succeed r) := ⟨_, _, _, _, _, _, _, _, _, rfl⟩

theorem sameBlock_raise (s : State) (e : ErrCode) (r0 : Word) : SameBlock s (s.raise e r0) :=
  ⟨_, _, _, _, _, _, _, _, _, rfl⟩

theorem Legal.setEng {s : State} (hl : Legal s) (e : Engine) : Legal (s.setEng e) :=
  ⟨hl.osc, hl.poly, hl.env, hl.epool, hl.dly, hl.flt, hl.rev, hl.mixer⟩

theorem Legal.setSwin {s : State} (hl : Legal s) (m : Memory) : Legal (s.setSwin m) :=
  ⟨hl.osc, hl.poly, hl.env, hl.epool, hl.dly, hl.flt, hl.rev, hl.mixer⟩

theorem Legal.setMixer {s : State} (hl : Legal s) {m : Mixer} (hm : MixerLegal m) : Legal (s.setMixer m) :=
  ⟨hl.osc, hl.poly, hl.env, hl.epool, hl.dly, hl.flt, hl.rev, fun n hn => by cases hn; exact hm⟩

/-! ## Every elementary change -/

theorem Change.keeps {who : Option Instr} {s t : State} (h : Change who s t) : Keeps Sound Legal s t := by
  intro hs
  cases h with
  | osc hu hv =>
    obtain ⟨hok, hl⟩ := keeps_poolGet hs.osc hu hv
    exact ⟨hs.setOsc _ hok, fun h => h.setOsc _ (hl h.osc)⟩
  | poly hu hv =>
    obtain ⟨hok, hl⟩ := keeps_poolGet hs.poly hu hv
    exact ⟨hs.setPoly _ hok, fun h => h.setPoly _ (hl h.poly)⟩
  | env hu hv =>
    obtain ⟨hok, hl⟩ := keeps_poolGet hs.env hu hv
    exact ⟨hs.setEnv _ hok, fun h => h.setEnv _ (hl h.env)⟩
  | epool hu hv =>
    obtain ⟨hok, hl⟩ := keeps_poolGet hs.epool hu hv
    exact ⟨hs.setEpool _ hok, fun h => h.setEpool _ (hl h.epool)⟩
  | dly hu hv =>
    obtain ⟨hok, hl⟩ := keeps_poolGet hs.dly hu hv
    exact ⟨hs.setDly _ hok, fun h => h.setDly _ (hl h.dly)⟩
  | flt hu hv =>
    obtain ⟨hok, hl⟩ := keeps_poolGet hs.flt hu hv
    exact ⟨hs.setFlt _ hok, fun h => h.setFlt _ (hl h.flt)⟩
  | rev hu hv =>
    obtain ⟨hok, hl⟩ := keeps_poolGet hs.rev hu hv
    exact ⟨hs.setRev _ hok, fun h => h.setRev _ (hl h.rev)⟩
  | mixer hm hok hlegal => exact ⟨hs.setMixer hm hok, fun h => h.setMixer (hlegal (h.mixer _ hm))⟩
  | fifo hf hok =>
    exact ⟨hs.setFifo hf hok, fun h => ⟨h.osc, h.poly, h.env, h.epool, h.dly, h.flt, h.rev, h.mixer⟩⟩
  | ring hr hok =>
    exact ⟨hs.setRing hr hok, fun h => ⟨h.osc, h.poly, h.env, h.epool, h.dly, h.flt, h.rev, h.mixer⟩⟩
  | chain hok => exact ⟨hs.setChain hok, fun h => ⟨h.osc, h.poly, h.env, h.epool, h.dly, h.flt, h.rev, h.mixer⟩⟩
  | samples _ _ _ hmax => exact ⟨hs.setWords (by omega), fun h => h.setSwin _⟩
  | draws d => exact SameBlock.keeps ⟨_, _, _, _, _, _, _, _, _, rfl⟩ hs
  | runState _ hne hst =>
    exact ⟨hs.setEng (iff_of_false hst hne) rfl rfl rfl (.inl rfl), fun h => h.setEng _⟩

/-! ## Commands -/

theorem Creates.keeps {i : Instr} {s t : State} (h : Creates i s t) : Keeps Sound Legal s t := by
  intro hs
  cases h with
  | osc _ he _ => exact ⟨hs.setOsc _ (oscOk_new (hs.rateOk he)), fun h => h.setOsc _ (oscLegal_new _)⟩
  | poly _ he _ => exact ⟨hs.setPoly _ (polyOk_new (hs.rateOk he)), fun h => h.setPoly _ (polyLegal_new _)⟩
  | env _ he _ => exact ⟨hs.setEnv _ (envOk_new (hs.rateOk he)), fun h => h.setEnv _ (envLegal_new _)⟩
  | epool _ he _ => exact ⟨hs.setEpool _ (epoolOk_new (hs.rateOk he)), fun h => h.setEpool _ (epoolLegal_new _)⟩
  | dly _ he _ => exact ⟨hs.setDly _ (dlyOk_created (hs.rateOk he)), fun h => h.setDly _ (dlyLegal_new _)⟩
  | flt _ he _ => exact ⟨hs.setFlt _ (fltOk_new (hs.rateOk he)), fun h => h.setFlt _ (fltLegal_new _)⟩
  | rev _ he _ => exact ⟨hs.setRev _ (revOk_new (hs.rateOk he)), fun h => h.setRev _ (revLegal_new _)⟩

/-- An init makes an empty mixer, FIFO and ring that fit its configuration (R580). -/
theorem initialised_keeps {s : State} (hv : initValid s.args.a0 s.args.a1 s.args.a2 = true) :
    Keeps Sound Legal s (initialised s) := by
  intro hs
  obtain ⟨d, hd⟩ := initialised_eq s
  have hbs : 1 ≤ s.args.a2.toNat := by
    simp only [initValid, Bool.and_eq_true, decide_eq_true_eq] at hv
    exact hv.1.2
  rw [hd]
  refine ⟨⟨hs.swin, hs.osc, hs.poly, hs.env, hs.epool, hs.dly, hs.flt, hs.rev, ?_, ?_, ?_, hs.chain, ?_⟩,
    fun hl => ⟨hl.osc, hl.poly, hl.env, hl.epool, hl.dly, hl.flt, hl.rev, ?_⟩⟩
  · rintro m ⟨⟩
    simp [MixerOk, newMixer]
  · rintro f ⟨⟩
    exact ⟨rfl, Nat.zero_le _⟩
  · rintro r ⟨⟩
    have hslots : 0 < Config.bufFactor * s.args.a2.toNat := Nat.mul_pos (by decide) hbs
    exact ⟨rfl, hslots, hslots, rfl⟩
  · exact ⟨nofun, fun _ => ⟨hv, by simp only [initEngine], rfl, rfl, rfl⟩⟩
  · rintro m ⟨⟩
    exact ⟨⟨by decide, by decide⟩, by simp [newMixer]⟩

theorem exec_keeps {i : Instr} {s t : State} (h : exec i s = .next t) : Keeps Sound Legal s t :=
  exec_preserves (P := Keeps Sound Legal s) h (.refl s) (fun u r hu => hu.trans (sameBlock_succeed u r).keeps)
    (fun u e r0 hu => hu.trans (sameBlock_raise u e r0).keeps) (fun _ _ _ hc hu => hu.trans hc.keeps)
    (fun _ hc => hc.keeps) fun _ hv => initialised_keeps hv

/-! ## Frame requests -/

theorem MetricsMove.keeps {s : State} {e : Engine} (h : MetricsMove s.eng e) : Keeps Sound Legal s (s.setEng e) :=
  fun hs => ⟨hs.setEng (by rw [h.state]) h.sr h.ch h.bufsz h.latency, fun hl => hl.setEng e⟩

theorem frameRequest_keeps (s : State) (n : Nat) : Keeps Sound Legal s (frameRequest s n) :=
  frameRequest_preserves (P := Keeps Sound Legal s) (.refl s) (fun _ _ hc hu => hu.trans hc.keeps)
    (fun _ _ _ _ hm hu => hu.trans (hm.keeps.trans (SameBlock.keeps ⟨_, _, _, _, _, _, _, _, _, rfl⟩))) n

end Sys2Proof.Machine
end

section
/-! The command port: what each offset reads and a write to it does, and what one step can do (10_state.md R53, R54,
20_memory.md R150, R155). -/

namespace Sys2Proof.Machine

/-! ## The register map -/

theorem portRegAt_eq_some {off : Nat} {r : PortReg} : portRegAt off = some r ↔ r.offset = off := by
  constructor
  · intro h
    simpa using List.find?_some h
  · rintro rfl
    cases r <;> rfl

/-- Past VERSION every offset is reserved (R53). -/
theorem portRegAt_reserved {off : Nat} (h : 0x54 ≤ off) : portRegAt off = none := by
  cases hr : portRegAt off with
  | none => rfl
  | some r =>
    have := portRegAt_eq_some.1 hr
    cases r <;> simp only [PortReg.offset] at this <;> omega

theorem portWrite_reg (s : State) (r : PortReg) (w : Word) : portWrite s r.offset w = regWrite s r w := by cases r <;> rfl

theorem portRead_reserved (s : State) {off : Nat} (h : 0x54 ≤ off) (h' : off < 0x10000) : portRead s off = 0 := by
  have : Config.swinBase = 0x10000 := rfl
  rw [portRead, if_neg (by omega), portRegAt_reserved h]

theorem portRead_swin (s : State) (j : Nat) : portRead s (0x10000 + 4 * j) = s.swin.word j := by
  have : Config.swinBase = 0x10000 := rfl
  rw [portRead, if_pos (by omega), show (0x10000 + 4 * j - Config.swinBase) / 4 = j by omega]

theorem portWrite_swin (s : State) (j : Nat) (w : Word) :
    portWrite s (0x10000 + 4 * j) w = .next (s.setSwin (s.swin.setWords j [w])) := by
  have : Config.swinBase = 0x10000 := rfl
  rw [portWrite, if_pos (by omega), show (0x10000 + 4 * j - Config.swinBase) / 4 = j by omega]

/-- The registers from STATUS on are read-only (R53). -/
theorem regWrite_readOnly (s : State) {r : PortReg} (h : 0x14 ≤ r.offset) (w : Word) : regWrite s r w = .next s := by
  cases r
  case cmd | arg0 | arg1 | arg2 | arg3 => exact absurd h (by decide)
  all_goals rfl

theorem accepts_iff {base a size : Nat} :
    accepts base a size = true ↔ ∃ off, a = base + off ∧ off < 0x20000 ∧ off % 4 = 0 ∧ size = 4 := by
  have : Config.portBytes = 0x20000 := rfl
  simp only [accepts, Bool.and_eq_true, decide_eq_true_eq, beq_iff_eq]
  constructor
  · rintro ⟨⟨⟨h1, h2⟩, h3⟩, h4⟩
    exact ⟨a - base, by omega, by omega, h4, h3⟩
  · rintro ⟨off, rfl, h2, h3, h4⟩
    exact ⟨⟨⟨by omega, by omega⟩, h4⟩, by rwa [Nat.add_sub_cancel_left]⟩

/-! ## One step -/

theorem step_nil {s : State} (h : s.inputs = []) : step s = .next s := by rw [step, takeInput, h]

theorem step_cons {s : State} {e : Input} {rest : List Input} (h : s.inputs = e :: rest) :
    step s = serve { s with inputs := rest } e := by rw [step, takeInput, h]

theorem serve_read {s : State} {off : Nat} (h : off < 0x20000) (h4 : off % 4 = 0) :
    serve s (.busRead (s.cpBase + off) 4) = .next { s with rdata := portRead s off } := by
  rw [serve, if_pos (accepts_iff.2 ⟨off, rfl, h, h4, rfl⟩), Nat.add_sub_cancel_left]

theorem serve_write {s : State} {off : Nat} (h : off < 0x20000) (h4 : off % 4 = 0) (w : Word) :
    serve s (.busWrite (s.cpBase + off) 4 w) = portWrite s off w := by
  rw [serve, if_pos (accepts_iff.2 ⟨off, rfl, h, h4, rfl⟩), Nat.add_sub_cancel_left]

/-- What a step can do to the block: nothing, one word of SWIN, a command, or a frame request, on a state that differs
from `s` only outside the block. -/
inductive Serves (s : State) : State → Prop
  | port {t : State} (h : SameBlock s t) : Serves s t
  | word {s' : State} (h : SameBlock s s') {j : Nat} (hj : j < Config.swinWords) (w : Word) :
    Serves s (s'.setSwin (s'.swin.setWords j [w]))
  | command {s' t : State} {i : Instr} (h : SameBlock s s') (he : exec i s' = .next t) : Serves s t
  | frame {s' : State} (h : SameBlock s s') (n : Nat) : Serves s (frameRequest s' n)

theorem SameBlock.refl (s : State) : SameBlock s s := ⟨_, _, _, _, _, _, _, _, _, rfl⟩

theorem commandWrite_serves {s t : State} {w : Word} (h : commandWrite s w = .next t) : Serves s t := by
  unfold commandWrite at h
  split at h
  · exact .command ⟨_, _, _, _, _, _, _, _, _, rfl⟩ h
  · cases h; exact .port ⟨_, _, _, _, _, _, _, _, _, rfl⟩

theorem regWrite_serves {s t : State} {r : PortReg} {w : Word} (h : regWrite s r w = .next t) : Serves s t := by
  unfold regWrite at h
  split at h
  · exact commandWrite_serves h
  all_goals cases h; exact .port ⟨_, _, _, _, _, _, _, _, _, rfl⟩

theorem portWrite_serves {s t : State} {off : Nat} {w : Word} (hoff : off < 0x20000) (h : portWrite s off w = .next t) :
    Serves s t := by
  have hbase : Config.swinBase = 0x10000 := rfl
  have hwords : Config.swinWords = 16384 := rfl
  unfold portWrite at h
  split at h
  · cases h; exact .word (.refl s) (by omega) w
  · split at h
    · exact regWrite_serves h
    · cases h; exact .port (.refl s)

theorem Serves.of_sameBlock {s s' t : State} (h : SameBlock s s') (ht : Serves s' t) : Serves s t := by
  have trans : ∀ {u}, SameBlock s' u → SameBlock s u := by
    rintro u ⟨_, _, _, _, _, _, _, _, _, rfl⟩
    obtain ⟨_, _, _, _, _, _, _, _, _, rfl⟩ := h
    exact ⟨_, _, _, _, _, _, _, _, _, rfl⟩
  cases ht with
  | port h' => exact .port (trans h')
  | word h' hj w => exact .word (trans h') hj w
  | command h' he => exact .command (trans h') he
  | frame h' n => exact .frame (trans h') n

/-- Everything a step can do when it answers a next state (R150). -/
theorem step_serves {s t : State} (h : step s = .next t) : Serves s t := by
  cases hin : s.inputs with
  | nil => rw [step_nil hin] at h; cases h; exact .port (.refl s)
  | cons e rest =>
    rw [step_cons hin] at h
    refine .of_sameBlock (s' := { s with inputs := rest }) ⟨_, _, _, _, _, _, _, _, _, rfl⟩ ?_
    generalize ({ s with inputs := rest } : State) = s' at h
    cases e with
    | busRead a size =>
      rw [serve] at h
      split at h
      · cases h; exact .port ⟨_, _, _, _, _, _, _, _, _, rfl⟩
      · cases h
    | busWrite a size w =>
      rw [serve] at h
      split at h
      · next hacc =>
        obtain ⟨off, rfl, hoff, -, -⟩ := accepts_iff.1 hacc
        rw [Nat.add_sub_cancel_left] at h
        exact portWrite_serves hoff h
      · cases h
    | frame n => cases h; exact .frame (.refl s') n

theorem Serves.keeps {s t : State} (h : Serves s t) : Keeps Sound Legal s t := by
  cases h with
  | port h => exact h.keeps
  | word h hj w => exact h.keeps.trans fun hs => ⟨hs.setWords (by simp; omega), fun hl => hl.setSwin _⟩
  | command h he => exact h.keeps.trans (exec_keeps he)
  | frame h n => exact h.keeps.trans (frameRequest_keeps _ n)

theorem step_keeps {s t : State} (h : step s = .next t) : Keeps Sound Legal s t := (step_serves h).keeps

end Sys2Proof.Machine

namespace Sys2Proof

open Machine

/-- Settles O19: a step is a run of elementary changes, each of which keeps the structure of the state. -/
theorem soundIsInvariant : Obligations.SoundIsInvariant := by
  unfold Obligations.SoundIsInvariant
  exact fun s t hs h => (step_keeps h hs).1

/-- Settles O20: each elementary change keeps the legal values too, the bounds on phases and levels by the correct rounding
of every operation. -/
theorem legalIsInvariant : Obligations.LegalIsInvariant := by
  unfold Obligations.LegalIsInvariant
  exact fun s t hs hl h => (step_keeps h hs).2 hl

end Sys2Proof
end

section
/-! Who writes what: the operands, the engine record, the pools' slots, the sample window and the flag bits, each read off
the elementary changes (10_state.md R54-R61, R79). -/

namespace Sys2Proof.Machine

/-! ## Operands and the model's own fields -/

/-- What no command writes (10_state.md R56). -/
def SameOperands (s t : State) : Prop :=
  t.args = s.args ∧ t.cmd = s.cmd ∧ t.cpBase = s.cpBase ∧ t.inputs = s.inputs ∧ t.rdata = s.rdata ∧ t.out = s.out

theorem SameOperands.refl (s : State) : SameOperands s s := ⟨rfl, rfl, rfl, rfl, rfl, rfl⟩

theorem SameOperands.trans {s t u : State} (a : SameOperands s t) (b : SameOperands t u) : SameOperands s u :=
  ⟨b.1.trans a.1, b.2.1.trans a.2.1, b.2.2.1.trans a.2.2.1, b.2.2.2.1.trans a.2.2.2.1,
    b.2.2.2.2.1.trans a.2.2.2.2.1, b.2.2.2.2.2.trans a.2.2.2.2.2⟩

theorem Change.sameOperands {who : Option Instr} {s t : State} (h : Change who s t) : SameOperands s t := by
  cases h <;> exact ⟨rfl, rfl, rfl, rfl, rfl, rfl⟩

theorem Creates.sameOperands {i : Instr} {s t : State} (h : Creates i s t) : SameOperands s t := by
  cases h <;> exact ⟨rfl, rfl, rfl, rfl, rfl, rfl⟩

theorem initialised_sameOperands (s : State) : SameOperands s (initialised s) := by
  obtain ⟨d, hd⟩ := initialised_eq s
  rw [hd]
  exact ⟨rfl, rfl, rfl, rfl, rfl, rfl⟩

/-! ## The engine record -/

/-- The configuration, and which of MIXER, FIFO and RING are present (10_state.md R60, R71, R73, R74). -/
def SameConfig (s t : State) : Prop :=
  t.eng.sr = s.eng.sr ∧ t.eng.ch = s.eng.ch ∧ t.eng.bufsz = s.eng.bufsz ∧ t.eng.latency = s.eng.latency ∧
    t.mixer.isSome = s.mixer.isSome ∧ t.fifo.isSome = s.fifo.isSome ∧ t.ring.isSome = s.ring.isSome

/-- The metrics a frame request moves and no command does (R60). -/
def SameMetrics (s t : State) : Prop :=
  t.eng.underruns = s.eng.underruns ∧ t.eng.peak = s.eng.peak ∧ t.eng.cpuload = s.eng.cpuload

theorem SameConfig.trans {s t u : State} (a : SameConfig s t) (b : SameConfig t u) : SameConfig s u :=
  ⟨b.1.trans a.1, b.2.1.trans a.2.1, b.2.2.1.trans a.2.2.1, b.2.2.2.1.trans a.2.2.2.1,
    b.2.2.2.2.1.trans a.2.2.2.2.1, b.2.2.2.2.2.1.trans a.2.2.2.2.2.1, b.2.2.2.2.2.2.trans a.2.2.2.2.2.2⟩

theorem SameMetrics.trans {s t u : State} (a : SameMetrics s t) (b : SameMetrics t u) : SameMetrics s u :=
  ⟨b.1.trans a.1, b.2.1.trans a.2.1, b.2.2.trans a.2.2⟩

theorem Change.sameConfig {who : Option Instr} {s t : State} (h : Change who s t) : SameConfig s t := by
  cases h with
  | mixer hm => exact ⟨rfl, rfl, rfl, rfl, by rw [hm]; rfl, rfl, rfl⟩
  | fifo hf => exact ⟨rfl, rfl, rfl, rfl, rfl, by rw [hf]; rfl, rfl⟩
  | ring hr => exact ⟨rfl, rfl, rfl, rfl, rfl, rfl, by rw [hr]; rfl⟩
  | _ => exact ⟨rfl, rfl, rfl, rfl, rfl, rfl, rfl⟩

theorem Change.sameMetrics {who : Option Instr} {s t : State} (h : Change who s t) : SameMetrics s t := by
  cases h <;> exact ⟨rfl, rfl, rfl⟩

/-- The run state is set by ENG_START and ENG_STOP alone, and never to UNINIT (R60, R641). -/
theorem Change.eng {i : Instr} {s t : State} (h : Change (some i) s t) :
    t.eng = s.eng ∨ ((i = .engStart ∨ i = .engStop) ∧ t.eng.state ≠ .uninit) := by
  cases h with
  | runState hw _ hst => exact .inr ⟨by simpa using hw, hst⟩
  | _ => exact .inl rfl

theorem Creates.eng {i : Instr} {s t : State} (h : Creates i s t) : t.eng = s.eng := by cases h <;> rfl

theorem Creates.sameConfig {i : Instr} {s t : State} (h : Creates i s t) : SameConfig s t := by
  cases h <;> exact ⟨rfl, rfl, rfl, rfl, rfl, rfl, rfl⟩

theorem exec_eng {i : Instr} {s t : State} (h : exec i s = .next t) (hi : i ∉ [Instr.engInit, .engStart, .engStop]) :
    t.eng = s.eng := by
  simp only [List.mem_cons, List.not_mem_nil, or_false, not_or] at hi
  refine exec_preserves (P := fun u => u.eng = s.eng) h rfl (fun _ _ hu => hu) (fun _ _ _ hu => hu)
    (fun u v _ hc hu => ?_) (fun _ hc => hc.eng) fun he => absurd he hi.1
  rcases hc.eng with he | ⟨he, -⟩
  · exact he.trans hu
  · exact absurd he (not_or.2 hi.2)

theorem exec_sameConfig {i : Instr} {s t : State} (h : exec i s = .next t) (hi : i ≠ .engInit) : SameConfig s t :=
  exec_preserves (P := SameConfig s) h ⟨rfl, rfl, rfl, rfl, rfl, rfl, rfl⟩ (fun _ _ hu => hu) (fun _ _ _ hu => hu)
    (fun _ _ _ hc hu => hu.trans hc.sameConfig) (fun _ hc => hc.sameConfig) fun he => absurd he hi

theorem exec_sameMetrics {i : Instr} {s t : State} (h : exec i s = .next t) : SameMetrics s t :=
  exec_preserves (P := SameMetrics s) h ⟨rfl, rfl, rfl⟩ (fun _ _ hu => hu) (fun _ _ _ hu => hu)
    (fun _ _ _ hc hu => hu.trans hc.sameMetrics) (fun u hc => by rw [SameMetrics, hc.eng]; exact ⟨rfl, rfl, rfl⟩)
    fun _ _ => ⟨rfl, rfl, rfl⟩

/-- No command makes an initialised engine UNINIT (R641). -/
theorem exec_uninit {i : Instr} {s t : State} (h : exec i s = .next t) (ht : t.eng.state = .uninit) :
    s.eng.state = .uninit := by
  refine exec_preserves (P := fun u => u.eng.state = .uninit → s.eng.state = .uninit) h id (fun _ _ hu => hu)
    (fun _ _ _ hu => hu) (fun u v _ hc hu hv => ?_) (fun u hc hu => by rwa [hc.eng] at hu) (fun _ _ => nofun) ht
  rcases hc.eng with he | ⟨-, hne⟩
  · exact hu (he ▸ hv)
  · exact absurd hv hne

theorem frameRequest_metricsMove (s : State) (n : Nat) :
    (frameRequest s n).eng.state = s.eng.state ∧ (frameRequest s n).eng.sr = s.eng.sr ∧
      (frameRequest s n).eng.ch = s.eng.ch ∧ (frameRequest s n).eng.bufsz = s.eng.bufsz ∧
      s.eng.underruns.toNat ≤ (frameRequest s n).eng.underruns.toNat := by
  refine frameRequest_preserves (P := fun u => u.eng.state = s.eng.state ∧ u.eng.sr = s.eng.sr ∧ u.eng.ch = s.eng.ch ∧
    u.eng.bufsz = s.eng.bufsz ∧ s.eng.underruns.toNat ≤ u.eng.underruns.toNat) ⟨rfl, rfl, rfl, rfl, le_refl _⟩
    (fun u v hc hu => ?_) (fun u _ e _ hm ⟨h1, h2, h3, h4, h5⟩ => ?_) n
  · have he : v.eng = u.eng := by
      cases hc with
      | runState hw => simp at hw
      | _ => rfl
    rwa [he]
  · exact ⟨hm.state.trans h1, hm.sr.trans h2, hm.ch.trans h3, hm.bufsz.trans h4, h5.trans hm.underruns⟩

/-! ## The pools' slots -/

/-- An elementary change allocates and frees no slot (R55). -/
theorem Change.allocated {who : Option Instr} {s t : State} (h : Change who s t) (k : Kind) (j : Nat) :
    allocated t k j = allocated s k j := by
  cases h with
  | osc hu => cases k; case osc => exact isSome_poolSet hu _ j
              all_goals rfl
  | poly hu => cases k; case poly => exact isSome_poolSet hu _ j
               all_goals rfl
  | env hu => cases k; case env => exact isSome_poolSet hu _ j
              all_goals rfl
  | epool hu => cases k; case epool => exact isSome_poolSet hu _ j
                all_goals rfl
  | dly hu => cases k; case dly => exact isSome_poolSet hu _ j
              all_goals rfl
  | flt hu => cases k; case flt => exact isSome_poolSet hu _ j
              all_goals rfl
  | rev hu => cases k; case rev => exact isSome_poolSet hu _ j
              all_goals rfl
  | _ => cases k <;> rfl

theorem Creates.grows {i : Instr} {s t : State} (h : Creates i s t) : Grows s t := by
  cases h with
  | osc => exact grows_setOsc s _ _
  | poly => exact grows_setPoly s _ _
  | env => exact grows_setEnv s _ _
  | epool => exact grows_setEpool s _ _
  | dly => exact grows_setDly s _ _
  | flt => exact grows_setFlt s _ _
  | rev => exact grows_setRev s _ _

/-- The slot newly allocated is the free one, below which every slot was allocated (R55). -/
theorem allocated_below {α : Type} {p : List (Option α)} {k j : Nat} {u : α} (hk : freeSlot p = some k)
    (h0 : (poolGet p j).isSome = false) (h1 : (poolGet (poolSet p k u) j).isSome = true) :
    ∀ j', j' < j → (poolGet p j').isSome = true := by
  rw [poolGet_poolSet] at h1
  split at h1
  · next hj =>
    intro j' hlt
    obtain ⟨v, hv⟩ := (freeSlot_some.1 hk).2 j' (hj.1 ▸ hlt)
    rw [hv]; rfl
  · rw [h0] at h1; cases h1

theorem Creates.allocates {i : Instr} {s t : State} (h : Creates i s t) {k : Kind} {j : Nat}
    (h0 : allocated s k j = false) (h1 : allocated t k j = true) :
    createdKind i = some k ∧ ∀ j', j' < j → allocated s k j' = true := by
  have other : allocated t k j = allocated s k j → False := fun he => by rw [he, h0] at h1; cases h1
  cases h with
  | osc hi _ hk => cases k; case osc => exact ⟨hi, allocated_below hk h0 h1⟩
                   all_goals exact (other rfl).elim
  | poly hi _ hk => cases k; case poly => exact ⟨hi, allocated_below hk h0 h1⟩
                    all_goals exact (other rfl).elim
  | env hi _ hk => cases k; case env => exact ⟨hi, allocated_below hk h0 h1⟩
                   all_goals exact (other rfl).elim
  | epool hi _ hk => cases k; case epool => exact ⟨hi, allocated_below hk h0 h1⟩
                     all_goals exact (other rfl).elim
  | dly hi _ hk => cases k; case dly => exact ⟨hi, allocated_below hk h0 h1⟩
                   all_goals exact (other rfl).elim
  | flt hi _ hk => cases k; case flt => exact ⟨hi, allocated_below hk h0 h1⟩
                   all_goals exact (other rfl).elim
  | rev hi _ hk => cases k; case rev => exact ⟨hi, allocated_below hk h0 h1⟩
                   all_goals exact (other rfl).elim

theorem initialised_allocated (s : State) (k : Kind) (j : Nat) : allocated (initialised s) k j = allocated s k j := by
  obtain ⟨d, hd⟩ := initialised_eq s
  rw [hd]
  cases k <;> rfl

theorem exec_grows {i : Instr} {s t : State} (h : exec i s = .next t) : Grows s t := by
  intro k j hj
  exact exec_preserves (P := fun u => allocated u k j = true) h hj (fun _ _ hu => by cases k <;> exact hu)
    (fun _ _ _ hu => by cases k <;> exact hu) (fun _ _ _ hc hu => (hc.allocated k j).trans hu)
    (fun _ hc => hc.grows k j hj) fun _ _ => (initialised_allocated s k j).trans hj

theorem exec_allocates {i : Instr} {s t : State} (h : exec i s = .next t) {k : Kind} {j : Nat}
    (h0 : allocated s k j = false) (h1 : allocated t k j = true) :
    createdKind i = some k ∧ ∀ j', j' < j → allocated s k j' = true := by
  refine exec_preserves (P := fun u => allocated u k j = true →
      createdKind i = some k ∧ ∀ j', j' < j → allocated s k j' = true) h (fun hs => ?_)
    (fun _ _ hu hv => hu (by cases k <;> exact hv)) (fun _ _ _ hu hv => hu (by cases k <;> exact hv))
    (fun _ _ _ hc hu hv => hu ((hc.allocated k j).symm.trans hv)) (fun _ hc hv => hc.allocates h0 hv) (fun _ _ hv => ?_) h1
  · rw [h0] at hs; cases hs
  · rw [initialised_allocated, h0] at hv; cases hv

theorem frameRequest_allocated (s : State) (n : Nat) (k : Kind) (j : Nat) :
    allocated (frameRequest s n) k j = allocated s k j :=
  frameRequest_preserves (P := fun u => allocated u k j = allocated s k j) rfl
    (fun _ _ hc hu => (hc.allocated k j).trans hu) (fun _ _ _ _ _ hu => by cases k <;> exact hu) n

theorem SameBlock.allocated {s t : State} (h : SameBlock s t) (k : Kind) (j : Nat) :
    allocated t k j = allocated s k j := by
  obtain ⟨_, _, _, _, _, _, _, _, _, rfl⟩ := h
  cases k <;> rfl

theorem step_grows {s t : State} (h : step s = .next t) : Grows s t := by
  intro k j hj
  cases step_serves h with
  | port hb => rw [hb.allocated]; exact hj
  | word hb _ w =>
    rw [← hb.allocated] at hj
    cases k <;> exact hj
  | command hb he => rw [← hb.allocated] at hj; exact exec_grows he k j hj
  | frame hb n => rw [frameRequest_allocated, hb.allocated]; exact hj

/-! ## The sample window -/

/-- Only the sample-writing commands change SWIN, and they the words their rule names (R61). -/
theorem Change.swin {i : Instr} {s t : State} (h : Change (some i) s t) :
    t.swin = s.swin ∨ (i ∈ sampleWriters ∧ ∃ ws, ws.length = swinWritten i s ∧ t.swin = s.swin.setWords 0 ws) := by
  cases h with
  | samples hw hi hlen =>
    cases hw
    exact .inr ⟨hi, _, hlen, rfl⟩
  | _ => exact .inl rfl

theorem Creates.swin {i : Instr} {s t : State} (h : Creates i s t) : t.swin = s.swin := by cases h <;> rfl

theorem initialised_swin (s : State) : (initialised s).swin = s.swin := by
  obtain ⟨d, hd⟩ := initialised_eq s
  rw [hd]

/-- What every write of the first words leaves alone, no command changes. -/
theorem exec_swin_outside {β : Type} {f : Memory → β} {i : Instr} {s t : State} (h : exec i s = .next t)
    (hf : ∀ (m : Memory) (ws : List Word), ws.length = swinWritten i s → f (m.setWords 0 ws) = f m) :
    f t.swin = f s.swin := by
  refine exec_preserves (P := fun u => f u.swin = f s.swin) h rfl (fun _ _ hu => hu) (fun _ _ _ hu => hu)
    (fun u v hargs hc hu => ?_) (fun _ hc => by rw [hc.swin]) fun _ _ => by rw [initialised_swin]
  rcases hc.swin with he | ⟨-, ws, hlen, he⟩
  · rw [he]; exact hu
  · rw [he, hf _ _ (hlen.trans (swinWritten_congr hargs))]; exact hu

theorem Changes.swin_of_not_writer {i : Instr} (hi : i ∉ sampleWriters) {s t : State} (h : Changes (some i) s t) :
    t.swin = s.swin := by
  refine (h.preserves (P := fun u => u.swin = s.swin) rfl fun u v _ hc hu => ?_).2
  rcases hc.swin with he | ⟨hw, -⟩
  · exact he.trans hu
  · exact absurd hw hi

theorem exec_swin_of_not_writer {i : Instr} (hi : i ∉ sampleWriters) {s t : State} (h : exec i s = .next t) :
    t.swin = s.swin := by
  cases exec_ends h with
  | raised => rfl
  | refused _ hu => exact hu.swin_of_not_writer hi
  | created hu => exact hu.swin
  | inited => exact initialised_swin s
  | completed hu => exact hu.swin_of_not_writer hi

/-- A failed command writes no sample word (60_exceptions.md R633). -/
theorem exec_swin_of_failed {i : Instr} {s t : State} (h : exec i s = .next t) (he : t.err ≠ .ok) : t.swin = s.swin := by
  cases exec_ends h with
  | raised => rfl
  | refused hi hu => exact hu.swin_of_not_writer (by rcases hi with rfl | rfl <;> decide)
  | created | inited | completed => exact absurd rfl he

theorem frameRequest_swin (s : State) (n : Nat) : (frameRequest s n).swin = s.swin := by
  refine frameRequest_preserves (P := fun u => u.swin = s.swin) rfl (fun u v hc hu => ?_) (fun _ _ _ _ _ hu => hu) n
  cases hc with
  | samples hw => cases hw
  | _ => exact hu

end Sys2Proof.Machine

namespace Sys2Proof

open Machine

/-- Settles O12: no elementary change, create or init writes an operand. -/
theorem commandsKeepOperands : Obligations.CommandsKeepOperands := by
  unfold Obligations.CommandsKeepOperands
  intro i s t h
  exact exec_preserves (P := SameOperands s) h (.refl s) (fun _ _ hu => hu) (fun _ _ _ hu => hu)
    (fun _ _ _ hc hu => hu.trans hc.sameOperands) (fun _ hc => hc.sameOperands) fun _ _ => initialised_sameOperands s

/-- Settles O14: the engine record is written by an init, by the two run-state commands and by the metrics of a frame. -/
theorem engineWriters : Obligations.EngineWriters := by
  unfold Obligations.EngineWriters
  refine ⟨fun i s t h => ⟨exec_eng h, exec_sameConfig h, ?_⟩, frameRequest_metricsMove⟩
  obtain ⟨hu, hp, hc⟩ := exec_sameMetrics h
  exact ⟨hu, hp, hc, exec_uninit h⟩

/-- Settles O15: records are replaced in allocated slots, and a create alone fills the lowest free one. -/
theorem unitsAreNeverFreed : Obligations.UnitsAreNeverFreed := by
  unfold Obligations.UnitsAreNeverFreed
  exact ⟨fun s t k j h => step_grows h k j, fun i s t k j h h0 h1 => exec_allocates h h0 h1, frameRequest_allocated⟩

/-- Settles O16: the sample window is written by one kind of elementary change, from word 0 on. -/
theorem sampleWindowWriters : Obligations.SampleWindowWriters := by
  unfold Obligations.SampleWindowWriters
  have hbase : Config.swinBase = 0x10000 := rfl
  refine ⟨fun i s t h => ⟨fun hi => exec_swin_of_not_writer hi h, exec_swin_of_failed h, fun off hoff => ?_, fun j hj => ?_⟩,
    frameRequest_swin⟩
  · exact exec_swin_outside (f := fun m => m.byte off) h fun m ws hlen =>
      Memory.byte_setWords_of_outside m 0 ws off (by omega)
  · exact exec_swin_outside (f := fun m => m.word j) h fun m ws hlen =>
      Memory.word_setWords_of_outside m 0 ws j (by omega)

end Sys2Proof
end

section
/-! The flag bits: an effect's bypass and a channel's mute (10_state.md R79, 43_effects.md R420, 44_channel_mixer.md R481). -/

namespace Sys2Proof.Machine

/-! ## Bypass bits -/

/-- A record in slot `k` of pool `p` is one with the same flag in pool `q`. -/
def FlagFrom {α : Type} (flag : α → Bool) (k : Nat) (p q : List (Option α)) : Prop :=
  ∀ u, poolGet p k = some u → ∃ v, poolGet q k = some v ∧ flag v = flag u

section FlagFrom

variable {α : Type} {flag : α → Bool} {k j : Nat} {p q r : List (Option α)} {u v : α}

theorem FlagFrom.refl (p : List (Option α)) : FlagFrom flag k p p := fun u hu => ⟨u, hu, rfl⟩

theorem FlagFrom.trans (a : FlagFrom flag k p q) (b : FlagFrom flag k q r) : FlagFrom flag k p r := by
  intro u hu
  obtain ⟨v, hv, ev⟩ := a u hu
  obtain ⟨w, hw, ew⟩ := b v hv
  exact ⟨w, hw, ew.trans ev⟩

/-- A record replaced by one with the same flag. -/
theorem FlagFrom.replace (hu : poolGet p j = some u) (hf : flag v = flag u) : FlagFrom flag k p (poolSet p j v) := by
  intro w hw
  by_cases hk : k = j
  · subst hk
    rw [hu] at hw
    cases hw
    exact ⟨v, poolGet_poolSet_self v (poolGet_lt hu), hf⟩
  · exact ⟨w, by rw [poolGet_poolSet_ne p v hk, hw], rfl⟩

/-- A record put into a free slot touches no other record. -/
theorem FlagFrom.fill (hj : freeSlot p = some j) (v : α) : FlagFrom flag k p (poolSet p j v) := by
  intro w hw
  have hk : k ≠ j := by
    rintro rfl
    rw [poolGet_some, (freeSlot_some.1 hj).1] at hw
    cases hw
  exact ⟨w, by rw [poolGet_poolSet_ne p v hk, hw], rfl⟩

end FlagFrom

/-- Every effect in slot `k` keeps its bypass bit. -/
def BypassFrom (k : Nat) (s t : State) : Prop :=
  FlagFrom (fun u : Dly => u.mix.bypass) k s.dly t.dly ∧ FlagFrom (fun u : Flt => u.mix.bypass) k s.flt t.flt ∧
    FlagFrom (fun u : Rev => u.mix.bypass) k s.rev t.rev

theorem BypassFrom.refl (k : Nat) (s : State) : BypassFrom k s s := ⟨.refl _, .refl _, .refl _⟩

theorem BypassFrom.trans {k : Nat} {s t u : State} (a : BypassFrom k s t) (b : BypassFrom k t u) : BypassFrom k s u :=
  ⟨a.1.trans b.1, a.2.1.trans b.2.1, a.2.2.trans b.2.2⟩

theorem Change.bypassFrom {who : Option Instr} (hw : who ≠ some .fxSetBypass) {s t : State} (h : Change who s t) (k : Nat) :
    BypassFrom k s t := by
  cases h with
  | dly hu _ hb => exact ⟨.replace hu (hb hw), .refl _, .refl _⟩
  | flt hu _ hb => exact ⟨.refl _, .replace hu (hb hw), .refl _⟩
  | rev hu _ hb => exact ⟨.refl _, .refl _, .replace hu (hb hw)⟩
  | _ => exact .refl k s

theorem Creates.bypassFrom {i : Instr} {s t : State} (h : Creates i s t) (k : Nat) : BypassFrom k s t := by
  cases h with
  | dly _ _ hj => exact ⟨.fill hj _, .refl _, .refl _⟩
  | flt _ _ hj => exact ⟨.refl _, .fill hj _, .refl _⟩
  | rev _ _ hj => exact ⟨.refl _, .refl _, .fill hj _⟩
  | _ => exact .refl k s

theorem exec_bypassFrom {i : Instr} (hi : i ≠ .fxSetBypass) {s t : State} (h : exec i s = .next t) (k : Nat) :
    BypassFrom k s t := by
  refine exec_preserves (P := BypassFrom k s) h (.refl k s) (fun _ _ hu => hu) (fun _ _ _ hu => hu)
    (fun _ _ _ hc hu => hu.trans (hc.bypassFrom (by simpa using hi) k)) (fun _ hc => hc.bypassFrom k) fun _ _ => ?_
  obtain ⟨d, hd⟩ := initialised_eq s
  rw [hd]
  exact .refl k s

theorem frameRequest_bypassFrom (s : State) (n k : Nat) : BypassFrom k s (frameRequest s n) :=
  frameRequest_preserves (P := BypassFrom k s) (.refl k s) (fun _ _ hc hu => hu.trans (hc.bypassFrom (by simp) k))
    (fun _ _ _ _ _ hu => hu) n

/-! ## Mute bits -/

/-- Every channel of `t`'s mixer was a channel of `m` with the same mute bit. -/
def MutesOf (m : Mixer) (t : State) : Prop := ∀ m', t.mixer = some m' → MutesFrom m m'

theorem mutesOf_self {s : State} {m : Mixer} (hm : s.mixer = some m) : MutesOf m s := by
  intro m' h
  rw [hm] at h
  cases h
  exact .refl m

theorem Change.mutesOf {who : Option Instr} (hset : who ≠ some .chSetMute) (hadd : who ≠ some .mixAddChannel) {s t : State}
    (h : Change who s t) {m : Mixer} (hs : MutesOf m s) : MutesOf m t := by
  cases h with
  | mixer hm _ _ hmute =>
    rintro m' ⟨⟩
    exact (hs _ hm).trans (hmute hset hadd)
  | _ => exact hs

theorem Creates.mixer {i : Instr} {s t : State} (h : Creates i s t) : t.mixer = s.mixer := by cases h <;> rfl

theorem exec_mutesOf {i : Instr} (hset : i ≠ .chSetMute) (hadd : i ≠ .mixAddChannel) (hinit : i ≠ .engInit)
    {s t : State} (h : exec i s = .next t) {m : Mixer} (hm : s.mixer = some m) : MutesOf m t :=
  exec_preserves (P := MutesOf m) h (mutesOf_self hm) (fun _ _ hu => hu) (fun _ _ _ hu => hu)
    (fun _ _ _ hc hu => hc.mutesOf (by simpa using hset) (by simpa using hadd) hu)
    (fun _ hc => by rw [MutesOf, hc.mixer]; exact mutesOf_self hm) fun hi => absurd hi hinit

theorem frameRequest_mutesOf {s : State} {m : Mixer} (hm : s.mixer = some m) (n : Nat) : MutesOf m (frameRequest s n) :=
  frameRequest_preserves (P := MutesOf m) (mutesOf_self hm) (fun _ _ hc hu => hc.mutesOf (by simp) (by simp) hu)
    (fun _ _ _ _ _ hu => hu) n

theorem findChannel_append {l : List (Word × Channel)} {id : Word} {c : Channel} (h : findChannel l id = some c)
    (l' : List (Word × Channel)) : findChannel (l ++ l') id = some c := by
  induction l with
  | nil => cases h
  | cons p t ih =>
    obtain ⟨k, d⟩ := p
    rw [List.cons_append, findChannel]
    rw [findChannel] at h
    split
    · next hk => rwa [if_pos hk] at h
    · next hk => rw [if_neg hk] at h; exact ih h

/-- A channel there before and after has the same mute bit when all of `t`'s channels come from `m`. -/
theorem MutesOf.eq {m m' : Mixer} {t : State} (h : MutesOf m t) (hm' : t.mixer = some m') {id : Word} {c c' : Channel}
    (hc : findChannel m.ch id = some c) (hc' : findChannel m'.ch id = some c') : c'.mute = c.mute := by
  obtain ⟨d, hd, he⟩ := h m' hm' id c' hc'
  rw [hc] at hd
  cases hd
  exact he

/-- A new channel leaves those found before as they are (44_channel_mixer.md R476). -/
theorem mixAddChannel_keeps_found {s t : State} {m m' : Mixer} {id : Word} {c : Channel}
    (h : exec .mixAddChannel s = .next t) (hm : s.mixer = some m) (hm' : t.mixer = some m')
    (hc : findChannel m.ch id = some c) : findChannel m'.ch id = some c := by
  rcases execMixAddChannel_cases h with ⟨e, rfl⟩ | ⟨n, hn, -, -, rfl⟩
  · rw [State.raise_mixer, hm] at hm'
    cases hm'
    exact hc
  · rw [hm] at hn
    cases hn
    cases hm'
    exact findChannel_append hc _

end Sys2Proof.Machine

namespace Sys2Proof

open Machine

/-- Settles O17: only FX_SET_BYPASS and CH_SET_MUTE make an elementary change of a flag bit. -/
theorem flagWriters : Obligations.FlagWriters := by
  unfold Obligations.FlagWriters
  refine ⟨fun i s t k h hi => exec_bypassFrom hi h k, fun i s t m m' id c c' h hi hm hm' hc hc' => ?_, fun s n k => ?_⟩
  · simp only [List.mem_cons, List.not_mem_nil, or_false, not_or] at hi
    by_cases hadd : i = .mixAddChannel
    · subst hadd
      rw [mixAddChannel_keeps_found h hm hm' hc] at hc'
      cases hc'
      rfl
    · exact (exec_mutesOf hi.1 hadd hi.2 h hm).eq hm' hc hc'
  · obtain ⟨hd, hf, hr⟩ := frameRequest_bypassFrom s n k
    exact ⟨hd, hf, hr, fun m m' id c c' hm hm' hc hc' => (frameRequest_mutesOf hm n).eq hm' hc hc'⟩

end Sys2Proof
end

section
/-! The result registers: what a command leaves in them, and that no command reads them (10_state.md R57). -/

namespace Sys2Proof.Machine

/-- `s` with other result registers. -/
def State.withRes (s : State) (q : Res) : State := { s with res := q }

/-! ## Checks and generators do not read the result registers -/

section WithRes

variable (s : State) (q : Res)

theorem allocated_withRes (k : Kind) (i : Nat) : allocated (s.withRes q) k i = allocated s k i := by cases k <;> rfl

theorem decodeHandle_withRes (h : Word) (acc : List Kind) :
    decodeHandle (s.withRes q) h acc = decodeHandle s h acc := by
  simp only [decodeHandle, allocated_withRes]

theorem unitOf_withRes {α : Type} (k : Kind) (p : List (Option α)) (h : Word) :
    unitOf (s.withRes q) k p h = unitOf s k p h := by
  simp only [unitOf, decodeHandle_withRes]

theorem srcOf_withRes (h : Word) : srcOf (s.withRes q) h = srcOf s h := by simp only [srcOf, decodeHandle_withRes]

theorem fxOf_withRes (h : Word) : fxOf (s.withRes q) h = fxOf s h := by simp only [fxOf, decodeHandle_withRes]

theorem srcGen_withRes (r : SrcRef) (n : Nat) :
    srcGen (s.withRes q) r n = ((srcGen s r n).1, (srcGen s r n).2.withRes q) := by
  cases r with
  | osc i => unfold srcGen; cases h : poolGet s.osc i <;> simp [State.withRes, h]
  | poly i => unfold srcGen; cases h : poolGet s.poly i <;> simp [State.withRes, h]
  | env i => unfold srcGen; cases h : poolGet s.env i <;> simp [State.withRes, State.setEnv, h]

theorem fxRun_withRes (r : FxRef) (fs : List Frame) :
    fxRun (s.withRes q) r fs = ((fxRun s r fs).1, (fxRun s r fs).2.withRes q) := by
  cases r with
  | dly i => unfold fxRun; cases h : poolGet s.dly i <;> simp [State.withRes, State.setDly, h]
  | flt i => unfold fxRun; cases h : poolGet s.flt i <;> simp [State.withRes, State.setFlt, h]
  | rev i => unfold fxRun; cases h : poolGet s.rev i <;> simp [State.withRes, State.setRev, h]

theorem setFxMix_withRes (r : FxRef) (f : FxMix → FxMix) :
    setFxMix (s.withRes q) r f = (setFxMix s r f).withRes q := by
  cases r with
  | dly i => unfold setFxMix; cases h : poolGet s.dly i <;> simp [State.withRes, State.setDly, h]
  | flt i => unfold setFxMix; cases h : poolGet s.flt i <;> simp [State.withRes, State.setFlt, h]
  | rev i => unfold setFxMix; cases h : poolGet s.rev i <;> simp [State.withRes, State.setRev, h]

theorem chGen_withRes (c : Channel) (n : Nat) :
    chGen (s.withRes q) c n = ((chGen s c n).1, (chGen s c n).2.1, (chGen s c n).2.2.withRes q) := by
  unfold chGen
  cases c.src with
  | none => rfl
  | some r => cases c.mute <;> simp [srcGen_withRes]

theorem mixChannels_withRes (n : Nat) (ch : List (Word × Channel)) (acc : List Frame) :
    mixChannels n ch acc (s.withRes q) =
      ((mixChannels n ch acc s).1, (mixChannels n ch acc s).2.1, (mixChannels n ch acc s).2.2.withRes q) := by
  induction ch generalizing acc s with
  | nil => rfl
  | cons p t ih => simp [mixChannels, chGen_withRes, ih]

theorem mixGen_withRes (m : Mixer) (n : Nat) :
    mixGen (s.withRes q) m n = ((mixGen s m n).1, (mixGen s m n).2.withRes q) := by
  simp only [mixGen, mixChannels_withRes]
  rfl

end WithRes

/-! ## Bodies that answer alike -/

/-- Two bodies raise the same code, or complete with states and results that end the same. -/
def SameAnswer (x y : Except ErrCode (State × Res)) : Prop :=
  x.map (fun p => p.1.succeed p.2) = y.map (fun p => p.1.succeed p.2)

/-- A check both bodies make, and then what they do with its answer. -/
theorem SameAnswer.bind {α : Type} {x y : Except ErrCode α} {f g : α → Except ErrCode (State × Res)} (hx : x = y)
    (h : ∀ a, SameAnswer (f a) (g a)) : SameAnswer (x >>= f) (y >>= g) := by
  subst hx
  cases x with
  | error e => rfl
  | ok a => exact h a

theorem SameAnswer.finish {s : State} {q : Res} {r0 : Word} {x y : Except ErrCode (State × Res)} (h : SameAnswer x y) :
    finish (s.withRes q) r0 x = finish s r0 y := by
  cases x with
  | error e =>
    cases y with
    | error e' => cases h; rfl
    | ok p => cases h
  | ok p =>
    cases y with
    | error e => cases h
    | ok p' =>
      have h : (.ok (p.1.succeed p.2) : Except ErrCode State) = .ok (p'.1.succeed p'.2) := h
      exact congrArg Host.Outcome.next (Except.ok.inj h)

theorem SameAnswer.ite {c : Prop} [Decidable c] {x x' y y' : Except ErrCode (State × Res)} (hx : SameAnswer x x')
    (hy : SameAnswer y y') : SameAnswer (if c then x else y) (if c then x' else y') := by
  split
  · exact hx
  · exact hy

theorem stopIfRunning_withRes (s : State) (q : Res) : stopIfRunning (s.withRes q) = (stopIfRunning s).withRes q := by
  unfold stopIfRunning
  exact (apply_ite (·.withRes q) (s.eng.state = .running) s.deviceAsked s).symm

/-- No command's answer depends on what the result registers held. -/
theorem exec_withRes (i : Instr) (s : State) (q : Res) : exec i (s.withRes q) = exec i s := by
  have hunit {α : Type} (k : Kind) (p : List (Option α)) (h : Word) := unitOf_withRes s q k p h
  have hfx := fxOf_withRes s q
  cases i with
  | nop | engGetMetrics => rfl
  | oscCreate | polyCreate | envCreate | epoolCreate | dlyCreate | fltCreate | revCreate =>
    exact SameAnswer.finish (.bind rfl fun _ => .bind rfl fun _ => rfl)
  | envNoteOn | envNoteOff | envGet => exact SameAnswer.finish (.bind (hunit ..) fun _ => rfl)
  | oscSetFreq | oscSetAmp | oscSetWave | polyNoteOn | polySetWave | envSetAttack | envSetDecay | envSetSustain
  | envSetRelease | epoolNoteOn | epoolAdvance | dlySetTime | dlySetFeedback | fltSetMode | fltSetCutoff | fltSetQ
  | revSetRoom | revSetDecay =>
    exact SameAnswer.finish (.bind (hunit ..) fun _ => .bind rfl fun _ => rfl)
  | epoolSet => exact SameAnswer.finish (.bind (hunit ..) fun _ => .bind rfl fun _ => .bind rfl fun _ => rfl)
  | polyNoteOff | epoolNoteOff =>
    refine SameAnswer.finish (.bind (hunit ..) fun _ => .bind rfl fun _ => ?_)
    generalize noteIndex _ _ = slot
    cases slot <;> rfl
  | epoolGet =>
    exact SameAnswer.finish (.bind (hunit ..) fun _ => .bind rfl fun _ => by split <;> rfl)
  | fxSetDry | fxSetWet | fxSetBypass =>
    exact SameAnswer.finish (.bind (hfx _) fun _ => .bind rfl fun _ => by rw [setFxMix_withRes]; rfl)
  | fxProcess => exact SameAnswer.finish (.bind (hfx _) fun _ => .bind rfl fun _ => by rw [fxRun_withRes]; rfl)
  | mixAddChannel => exact SameAnswer.finish (.bind rfl fun _ => .ite rfl rfl)
  | mixRemoveChannel => exact SameAnswer.finish (.bind rfl fun _ => .bind rfl fun _ => rfl)
  | chConnect =>
    exact SameAnswer.finish (.bind rfl fun _ => .bind (srcOf_withRes s q _) fun _ => .bind rfl fun _ => rfl)
  | chSetVolume | chSetPan =>
    exact SameAnswer.finish (.bind rfl fun _ => .bind rfl fun _ => .bind rfl fun _ => .bind rfl fun _ => .ite rfl rfl)
  | chSetMute => exact SameAnswer.finish (.bind rfl fun _ => .bind rfl fun _ => .bind rfl fun _ => rfl)
  | mixSetMaster => exact SameAnswer.finish (.bind rfl fun _ => .bind rfl fun _ => rfl)
  | mixGenerate => exact SameAnswer.finish (.bind rfl fun _ => .bind rfl fun _ => by rw [mixGen_withRes]; rfl)
  | srcGenerate =>
    exact SameAnswer.finish (.bind (srcOf_withRes s q _) fun _ => .bind rfl fun _ => by rw [srcGen_withRes]; rfl)
  | fifoWrite | fifoRead | fifoPeek | ringWrite | ringRead =>
    exact SameAnswer.finish (.bind rfl fun _ => .bind rfl fun _ => rfl)
  | fifoMetrics | ringMetrics => exact SameAnswer.finish (.bind rfl fun _ => rfl)
  | engInit => exact SameAnswer.finish (.ite (by rw [stopIfRunning_withRes]; rfl) rfl)
  | engStart | engStop => rfl
  | engAddProc => exact SameAnswer.finish (.bind (hfx _) fun _ => .ite rfl (.ite rfl rfl))
  | engRemoveProc => exact SameAnswer.finish (.bind (hfx _) fun _ => .ite rfl rfl)

/-! ## What a command leaves in the result registers -/

/-- A command whose failure leaves a word in RES0 defines RES0 (R57). -/
theorem failResult_eq_zero {i : Instr} (h : resultCount i = 0) : failResult i = 0 := by
  revert h
  cases i <;> decide

theorem resultsFit_failResult (i : Instr) : ResultsFit i (resOne (failResult i)) := by
  intro w hw
  cases hn : resultCount i with
  | zero =>
    rw [failResult_eq_zero hn] at hw
    exact resultsFit_zero i w hw
  | succ n =>
    rw [hn, List.drop_succ_cons] at hw
    simpa [resOne] using List.mem_of_mem_drop hw

theorem Ends.resultsFit {i : Instr} {s t : State} (h : Ends i s t) : ResultsFit i t.res := by
  cases h with
  | raised e => exact resultsFit_failResult i
  | refused hi hu => exact resultsFit_zero i
  | created hu hr => exact hr
  | inited hi hv => subst hi; exact resultsFit_one rfl _
  | completed hu hr => exact hr

theorem Ends.res_of_failed {i : Instr} {s t : State} (h : Ends i s t) (ht : t.err ≠ .ok) : t.res = resOne (failResult i) := by
  cases h with
  | raised e => rfl
  | refused hi hu => rcases hi with rfl | rfl <;> rfl
  | created hu hr | inited hi hv | completed hu hr => exact absurd rfl ht

end Sys2Proof.Machine

namespace Sys2Proof

open Machine

/-- Settles O13: the two results clauses by the ends of a command, and the last because neither a check nor a generator
reads the registers. -/
theorem resultRegisters : Obligations.ResultRegisters := by
  unfold Obligations.ResultRegisters
  intro i s t h
  exact ⟨(exec_ends h).resultsFit, (exec_ends h).res_of_failed, fun q => (exec_withRes i s q).trans h⟩

end Sys2Proof
end

section
/-! The command port read and written, STATUS, a command's step, and the state after reset (10_state.md R53, R54, R58,
R80). -/

namespace Sys2Proof.Machine

/-! ## STATUS (R58) -/

theorem engNumber_lt (e : EngState) : engNumber e < 3 := by cases e <;> decide

theorem errNumber_lt (e : ErrCode) : errNumber e < 2 ^ 8 := by cases e <;> decide

theorem statusWord_toNat (s : State) : (statusWord s).toNat = engNumber s.eng.state * 2 ^ 8 + errNumber s.err := by
  have := engNumber_lt s.eng.state
  have := errNumber_lt s.err
  rw [statusWord, BitVec.toNat_ofNat]
  omega

theorem statusWord_err (s : State) : (statusWord s).toNat % 2 ^ 8 = errNumber s.err := by
  have := errNumber_lt s.err
  rw [statusWord_toNat]
  omega

theorem statusWord_eng (s : State) : (statusWord s).toNat / 2 ^ 8 = engNumber s.eng.state := by
  have := errNumber_lt s.err
  rw [statusWord_toNat]
  omega

theorem frameRequest_err (s : State) (n : Nat) : (frameRequest s n).err = s.err := by
  refine frameRequest_preserves (P := fun u => u.err = s.err) rfl (fun u v hc hu => ?_) (fun _ _ _ _ _ hu => hu) n
  cases hc <;> exact hu

theorem frameRequest_statusWord (s : State) (n : Nat) : statusWord (frameRequest s n) = statusWord s := by
  rw [statusWord, frameRequest_err, (frameRequest_metricsMove s n).1, statusWord]

/-! ## Writes that store (R53, R155) -/

/-- From STATUS to the end of the reserved offsets a write is ignored. -/
theorem portWrite_ignored (s : State) {off : Nat} (h : 0x14 ≤ off) (h' : off < 0x10000) (w : Word) :
    portWrite s off w = .next s := by
  have hbase : Config.swinBase = 0x10000 := rfl
  rw [portWrite, if_neg (by omega)]
  cases hr : portRegAt off with
  | none => rfl
  | some r => exact regWrite_readOnly s (portRegAt_eq_some.1 hr ▸ h) w

/-- A SWIN word written reads back, and every other word keeps its value. -/
theorem portWrite_swin_word (s : State) (j : Nat) (w : Word) :
    ∃ m, portWrite s (0x10000 + 4 * j) w = .next { s with swin := m } ∧ m.word j = w ∧
      ∀ i, i ≠ j → m.word i = s.swin.word i := by
  refine ⟨_, portWrite_swin s j w, ?_, fun i hi => ?_⟩
  · simp [Memory.word_setWords]
  · exact Memory.word_setWords_of_outside _ _ _ _ (by simp; omega)

/-! ## A command's step (R54, R205) -/

theorem decode_encode (i : Instr) : decode (encode i) = .ok i := by cases i <;> rfl

theorem commandWrite_of_decode {w : Word} {i : Instr} (h : decode w = .ok i) (s : State) :
    commandWrite s w = exec i { s with cmd := w } := by rw [commandWrite, h]

theorem step_of_commandWrite {s : State} {w : Word} {i : Instr} {rest : List Input}
    (h : s.inputs = .busWrite s.cpBase 4 w :: rest) (hw : decode w = .ok i) :
    step s = exec i { s with inputs := rest, cmd := w } := by
  rw [step_cons h]
  calc serve { s with inputs := rest } (.busWrite s.cpBase 4 w)
      = portWrite { s with inputs := rest } PortReg.cmd.offset w := serve_write (off := 0) (by decide) (by decide) w
    _ = commandWrite { s with inputs := rest } w := portWrite_reg _ .cmd w
    _ = exec i { s with inputs := rest, cmd := w } := commandWrite_of_decode hw _

theorem withFetchWord_inputs (s : State) (w : Word) :
    (s.withFetchWord 32 w.toNat).inputs = .busWrite s.cpBase 4 w :: s.inputs := by
  simp only [State.withFetchWord, placeCommand, Nat.mod_eq_of_lt w.isLt, BitVec.ofNat_toNat, BitVec.setWidth_eq]

/-! ## The state after reset (R80) -/

theorem regRead_reset {r : PortReg} (hi : r ≠ .ident) (hv : r ≠ .version) : regRead State.reset r = 0 := by
  cases r
  case ident | version => contradiction
  all_goals rfl

theorem portRead_reset {off : Nat} (hi : off ≠ 0x4C) (hv : off ≠ 0x50) : portRead State.reset off = 0 := by
  unfold portRead
  split
  · rfl
  · cases hr : portRegAt off with
    | none => rfl
    | some r =>
      have hoff := portRegAt_eq_some.1 hr
      refine regRead_reset ?_ ?_ <;> rintro rfl
      · exact hi hoff.symm
      · exact hv hoff.symm

theorem poolGet_replicate_none {α : Type} (n i : Nat) : poolGet (List.replicate n (none : Option α)) i = none := by
  simp only [poolGet, List.getElem?_replicate]
  split <;> rfl

theorem allocated_reset (k : Kind) (i : Nat) : allocated State.reset k i = false := by
  cases k <;> simp [allocated, State.reset, poolGet_replicate_none]

theorem not_mem_replicate_none {α : Type} {n : Nat} {u : α} (h : some u ∈ List.replicate n none) : False :=
  nomatch List.eq_of_mem_replicate h

theorem poolOk_replicate_none {α : Type} (n : Nat) (ok : α → Prop) : PoolOk n ok (List.replicate n none) :=
  ⟨List.length_replicate, fun _ h => (not_mem_replicate_none h).elim⟩

theorem sound_reset : Sound State.reset where
  swin := Memory.wf_reset
  osc := poolOk_replicate_none _ _
  poly := poolOk_replicate_none _ _
  env := poolOk_replicate_none _ _
  epool := poolOk_replicate_none _ _
  dly := poolOk_replicate_none _ _
  flt := poolOk_replicate_none _ _
  rev := poolOk_replicate_none _ _
  mixer := nofun
  fifo := nofun
  ring := nofun
  chain := ⟨.nil, Nat.zero_le _, nofun⟩
  engine := ⟨fun _ => ⟨rfl, rfl, rfl, rfl, rfl, rfl⟩, fun h => absurd rfl h⟩

theorem legal_reset : Legal State.reset where
  osc _ h := (not_mem_replicate_none h).elim
  poly _ h := (not_mem_replicate_none h).elim
  env _ h := (not_mem_replicate_none h).elim
  epool _ h := (not_mem_replicate_none h).elim
  dly _ h := (not_mem_replicate_none h).elim
  flt _ h := (not_mem_replicate_none h).elim
  rev _ h := (not_mem_replicate_none h).elim
  mixer := nofun

end Sys2Proof.Machine

namespace Sys2Proof

open Machine

/-- Settles O6: each offset by the register it is, and a SWIN word by the rule of a run of words written. -/
theorem registerMap : Obligations.RegisterMap := by
  unfold Obligations.RegisterMap
  refine ⟨fun s => ?_, fun s rest off h h4 hin => ?_, fun s w => ?_⟩
  · exact ⟨rfl, rfl, rfl, rfl, rfl, rfl, rfl, rfl, rfl, rfl, rfl, rfl, rfl, rfl, rfl, rfl, rfl, rfl, rfl, rfl, rfl,
      fun _ h h' => portRead_reserved s h (by omega), fun j _ => portRead_swin s j⟩
  · rw [step_cons hin]
    exact serve_read (s := { s with inputs := rest }) h h4
  · refine ⟨rfl, rfl, rfl, rfl, fun _ h h' => portWrite_ignored s h (by omega) w, fun j _ => ?_⟩
    obtain ⟨m, hm, hj, hrest⟩ := portWrite_swin_word s j w
    exact ⟨m, hm, hj, fun i _ => hrest i⟩

/-- Settles O8: the two fields are the numbers of the code and of the engine's state, which a frame request keeps. -/
theorem statusFields : Obligations.StatusFields := by
  unfold Obligations.StatusFields
  intro s n w
  have heng := engNumber_lt s.eng.state
  have hlow : (statusWord s).toNat / 2 ^ 8 % 4 = engNumber s.eng.state := by rw [statusWord_eng]; omega
  refine ⟨statusWord_err s, hlow, by omega, ?_, rfl, frameRequest_statusWord s n, portWrite_reg s .status w⟩
  rw [show 2 ^ 10 = 2 ^ 8 * 4 from rfl, ← Nat.div_div_eq_div_mul, statusWord_eng]
  omega

/-- Settles O4: the write of a legal word to CMD is the command it decodes to. -/
theorem stepRunsCommand : Obligations.StepRunsCommand := by
  unfold Obligations.StepRunsCommand
  exact ⟨fun s w i rest => step_of_commandWrite,
    fun s i => step_of_commandWrite (s := s.withFetchWord 32 (encode i).toNat) (withFetchWord_inputs s (encode i))
      (decode_encode i),
    fun s n rest h => step_cons h, fun s => step_nil⟩

/-- Settles O9: no register but ID and VERSION, no SWIN word and no slot holds anything at reset. -/
theorem resetState : Obligations.ResetState := by
  unfold Obligations.ResetState
  exact ⟨fun _ _ hi hv _ => portRead_reset hi hv, rfl, rfl, rfl, allocated_reset, rfl, rfl, rfl, rfl, rfl, rfl, rfl, rfl,
    rfl, rfl, rfl⟩

/-- Settles O21: every pool holds free slots only, and there is nothing else to check. -/
theorem resetIsSafe : Obligations.ResetIsSafe := by
  unfold Obligations.ResetIsSafe
  exact ⟨sound_reset, legal_reset, sound_reset, legal_reset, nofun⟩

end Sys2Proof
end

section
/-! Byte lanes, little-endian: of a word, of the command port and of the output region (20_memory.md R156, R157). -/

namespace Sys2Proof

theorem bytesOfWord_getD (w : Word) {r : Nat} (hr : r < 4) :
    (bytesOfWord w).getD r 0 = BitVec.ofNat 8 (w.toNat / 2 ^ (8 * r)) := by
  match r, hr with
  | 0, _ => rw [Nat.mul_zero, Nat.pow_zero, Nat.div_one]; rfl
  | 1, _ | 2, _ | 3, _ => rfl

end Sys2Proof

namespace Sys2Proof.Machine

/-- Lane `r` of a word of SWIN is the byte stored at its own offset. -/
theorem Memory.bytesOfWord_word_getD (m : Memory) (j : Nat) {r : Nat} (hr : r < 4) :
    (bytesOfWord (m.word j)).getD r 0 = m.byte (Config.swinBase + 4 * j + r) := by
  rw [Memory.word, bytesOfWord_wordOfBytes]
  match r, hr with
  | 0, _ | 1, _ | 2, _ | 3, _ => rfl

theorem portByte_add (s : State) {off r : Nat} (h4 : off % 4 = 0) (hr : r < 4) :
    portByte s (off + r) = (bytesOfWord (portRead s off)).getD r 0 := by
  rw [portByte, show (off + r) / 4 * 4 = off by omega, show (off + r) % 4 = r by omega]

theorem portByte_toNat (s : State) {off r : Nat} (h4 : off % 4 = 0) (hr : r < 4) :
    (portByte s (off + r)).toNat = (portRead s off).toNat / 2 ^ (8 * r) % 2 ^ 8 := by
  rw [portByte_add s h4 hr, bytesOfWord_getD _ hr, BitVec.toNat_ofNat]

theorem portByte_swin (s : State) {off r : Nat} (h : 0x10000 ≤ off) (h4 : off % 4 = 0) (hr : r < 4) :
    portByte s (off + r) = s.swin.byte (off + r) := by
  obtain ⟨j, rfl⟩ : ∃ j, off = 0x10000 + 4 * j := ⟨(off - 0x10000) / 4, by omega⟩
  rw [portByte_add s h4 hr, portRead_swin]
  exact Memory.bytesOfWord_word_getD s.swin j hr

theorem outByte_add {s : State} {j r : Nat} {w : Word} (h : s.out[j]? = some w) (hr : r < 4) :
    outByte s (4 * j + r) = some (BitVec.ofNat 8 (w.toNat / 2 ^ (8 * r) % 2 ^ 8)) := by
  rw [outByte, show (4 * j + r) / 4 = j by omega, show (4 * j + r) % 4 = r by omega, h, Option.map_some,
    bytesOfWord_getD w hr]
  exact congrArg some (BitVec.eq_of_toNat_eq (by simp only [BitVec.toNat_ofNat, Nat.mod_mod]))

theorem outByte_past {s : State} {off : Nat} (h : 4 * s.out.length ≤ off) : outByte s off = none := by
  rw [outByte, List.getElem?_eq_none (by omega), Option.map_none]

/-- The top lane is all that is left of the word above bit 24. -/
theorem word_top_lane (w : Word) : w.toNat / 2 ^ 24 % 2 ^ 8 = w.toNat / 2 ^ 24 := by
  have := w.isLt
  omega

end Sys2Proof.Machine

namespace Sys2Proof

open Machine

/-- Settles O7: lane `r` of a word is its bits from `8 r` on, for the port and the output region alike, and a word of SWIN
is put together from the bytes at its own offsets. -/
theorem byteLanes : Obligations.ByteLanes := by
  unfold Obligations.ByteLanes
  refine ⟨fun s off h4 => ?_, fun s j w h => ?_, fun s off => outByte_past⟩
  · have lane : ∀ r, r < 4 → (portByte s (off + r)).toNat = (portRead s off).toNat / 2 ^ (8 * r) % 2 ^ 8 :=
      fun r hr => portByte_toNat s h4 hr
    refine ⟨?_, lane 1 (by omega), lane 2 (by omega), ?_, fun h r hr => portByte_swin s h h4 hr⟩
    · simpa using lane 0 (by omega)
    · exact (lane 3 (by omega)).trans (word_top_lane _)
  · have lane : ∀ r, r < 4 → outByte s (4 * j + r) = some (BitVec.ofNat 8 (w.toNat / 2 ^ (8 * r) % 2 ^ 8)) :=
      fun r hr => outByte_add h hr
    refine ⟨?_, lane 1 (by omega), lane 2 (by omega), ?_⟩
    · simpa using lane 0 (by omega)
    · rw [lane 3 (by omega), word_top_lane]

end Sys2Proof
end

section
/-! Command words: the opcode map read forwards and backwards, words and bytes, and illegal words (30_encoding.md R200-R205). -/

namespace Sys2Proof

open Machine

/-! ## The opcode map (R202, R203) -/

/-- The reserved opcodes of R203. -/
abbrev ReservedOpcode (op : Nat) : Prop :=
  (0x01 ≤ op ∧ op ≤ 0x0F) ∨ (0x14 ≤ op ∧ op ≤ 0x17) ∨ (0x1C ≤ op ∧ op ≤ 0x1F) ∨ (0x2E ≤ op ∧ op ≤ 0x2F) ∨
    (0x3E ≤ op ∧ op ≤ 0x3F) ∨ (0x49 ≤ op ∧ op ≤ 0x4F) ∨ (0x57 ≤ op ∧ op ≤ 0x5F) ∨ 0x66 ≤ op

theorem opcode_of_mem_opcodeRows : ∀ r ∈ opcodeRows, r.1 = r.2.opcode := by decide

/-- The opcode map holds, in order, every opcode that is not reserved. -/
theorem opcodeRows_keys : opcodeRows.map Prod.fst = (List.range 0x66).filter (¬ ReservedOpcode ·) := by decide

theorem exists_mem_opcodeRows_iff {op : Nat} : (∃ i, (op, i) ∈ opcodeRows) ↔ ¬ ReservedOpcode op := by
  calc (∃ i, (op, i) ∈ opcodeRows)
      ↔ op ∈ opcodeRows.map Prod.fst := by simp only [List.mem_map, Prod.exists, exists_and_right, exists_eq_right]
    _ ↔ op < 0x66 ∧ ¬ ReservedOpcode op := by rw [opcodeRows_keys, List.mem_filter, List.mem_range, decide_eq_true_eq]
    _ ↔ ¬ ReservedOpcode op := and_iff_right_of_imp fun h => by omega

/-! ## Words (R200, R205) -/

theorem encode_toNat (i : Instr) : (encode i).toNat = i.opcode := by cases i <;> rfl

/-- The two ways R205 leaves to a word: a row of the map holds its opcode under 24 zero bits, or it is illegal. -/
theorem decode_cases (w : Word) :
    (w.toNat / 2 ^ 8 = 0 ∧ ∃ i, (w.toNat % 2 ^ 8, i) ∈ opcodeRows ∧ decode w = .ok i) ∨
    ((w.toNat / 2 ^ 8 ≠ 0 ∨ ∀ i, (w.toNat % 2 ^ 8, i) ∉ opcodeRows) ∧ ∃ e, decode w = .error e) := by
  unfold decode
  split
  · next h => exact .inr ⟨.inl h, _, rfl⟩
  next h =>
  split
  · next r hr =>
    have hop : r.1 = w.toNat % 2 ^ 8 := by simpa using List.find?_some hr
    exact .inl ⟨not_not.1 h, r.2, hop ▸ List.mem_of_find?_eq_some hr, rfl⟩
  · next hr =>
    exact .inr ⟨.inr fun i hi => by simpa using List.find?_eq_none.1 hr _ hi, _, rfl⟩

theorem decode_eq_ok_iff {w : Word} {i : Instr} : decode w = .ok i ↔ w = encode i := by
  refine ⟨fun h => BitVec.eq_of_toNat_eq ?_, fun h => h ▸ decode_encode i⟩
  obtain ⟨hhigh, j, hj, hd⟩ | ⟨-, e, he⟩ := decode_cases w
  · obtain rfl : j = i := Except.ok.inj (hd.symm.trans h)
    have hop := opcode_of_mem_opcodeRows _ hj
    rw [encode_toNat, ← hop]
    omega
  · exact nomatch he.symm.trans h

/-- R203: a word is illegal by its upper 24 bits or by its opcode. -/
theorem decode_eq_error_iff {w : Word} :
    (∃ e, decode w = .error e) ↔ w.toNat / 2 ^ 8 ≠ 0 ∨ ReservedOpcode (w.toNat % 2 ^ 8) := by
  obtain ⟨hhigh, i, hi, hd⟩ | ⟨hbad, he⟩ := decode_cases w
  · refine iff_of_false (fun ⟨e, he⟩ => nomatch he.symm.trans hd) ?_
    exact not_or.2 ⟨not_not.2 hhigh, exists_mem_opcodeRows_iff.1 ⟨i, hi⟩⟩
  · refine iff_of_true he (hbad.imp_right fun hnone => ?_)
    exact not_not.1 fun hlegal => (exists_mem_opcodeRows_iff.2 hlegal).elim hnone

theorem decode_ne_ok_iff {w : Word} : (∀ i, decode w ≠ .ok i) ↔ ∃ e, decode w = .error e := by
  cases decode w <;> simp

/-! ## Byte streams (R157, R205) -/

theorem decodeBytes_bytesOfWord (w : Word) (rest : List Byte) :
    decodeBytes (bytesOfWord w ++ rest) = (decode w).map (·, rest) := by
  simp only [bytesOfWord, List.cons_append, List.nil_append, decodeBytes, wordOfBytes_bytesOfWord]
  cases decode w <;> rfl

/-- A stream of four bytes or more starts with the lanes of a word; a shorter one decodes to nothing. -/
theorem decodeBytes_cases (bytes : List Byte) :
    (∃ w tail, bytes = bytesOfWord w ++ tail) ∨ decodeBytes bytes = .error .tooShort := by
  match bytes with
  | b0 :: b1 :: b2 :: b3 :: tail =>
    exact .inl ⟨wordOfBytes b0 b1 b2 b3, tail, by rw [bytesOfWord_wordOfBytes]; rfl⟩
  | [] | [_] | [_, _] | [_, _, _] => exact .inr rfl

theorem decodeBytes_eq_ok_iff {bytes rest : List Byte} {i : Instr} :
    decodeBytes bytes = .ok (i, rest) ↔ bytes = bytesOfWord (encode i) ++ rest := by
  constructor
  · intro h
    obtain ⟨w, tail, rfl⟩ | hshort := decodeBytes_cases bytes
    · rw [decodeBytes_bytesOfWord] at h
      cases hd : decode w with
      | error e => rw [hd] at h; cases h
      | ok j => rw [hd] at h; cases h; rw [decode_eq_ok_iff.1 hd]
    · exact nomatch hshort.symm.trans h
  · rintro rfl
    rw [decodeBytes_bytesOfWord, decode_encode]
    rfl

/-! ## Illegal words written to CMD (R54, R203) -/

theorem commandWrite_of_error {w : Word} {e : DecodeError} (h : decode w = .error e) (s : State) :
    commandWrite s w = .next (({ s with cmd := w } : State).raise .illegalCmd 0) := by rw [commandWrite, h]

/-! ## The statements -/

/-- Settles O1: a word decodes to a command exactly if it is the command's encoding, and so do the four bytes a stream
starts with. -/
theorem commandWordsRoundTrip : Obligations.CommandWordsRoundTrip := by
  unfold Obligations.CommandWordsRoundTrip
  exact ⟨fun _ _ => decode_eq_ok_iff, fun _ _ => decodeBytes_eq_ok_iff.2 rfl, fun _ _ _ => decodeBytes_eq_ok_iff.1⟩

/-- Settles O2: the reserved opcodes are those in no row of the opcode map, and a write that decodes to an error raises. -/
theorem illegalCommandWords : Obligations.IllegalCommandWords := by
  unfold Obligations.IllegalCommandWords
  refine fun s w => ⟨decode_ne_ok_iff.trans decode_eq_error_iff, fun h => ?_⟩
  obtain ⟨e, he⟩ := decode_eq_error_iff.2 h
  exact commandWrite_of_error he s

/-- Settles O3: each word is the encoding of its command, so it decodes to it. -/
theorem sampleCommandWords : Obligations.SampleCommandWords := by
  unfold Obligations.SampleCommandWords
  exact ⟨decode_encode .nop, decode_encode .oscSetFreq, decode_encode .polyNoteOn, decode_encode .envGet,
    decode_encode .epoolAdvance, decode_encode .fltSetCutoff, decode_encode .fxProcess, decode_encode .chSetVolume,
    decode_encode .srcGenerate, decode_encode .ringWrite, decode_encode .engInit,
    decodeBytes_eq_ok_iff.2 (by decide)⟩

end Sys2Proof
end

section
/-! The shapes the commands share: a create, which fills the lowest free slot of a pool, and a command on the one unit its
handle names, with one checked operand (46_engine.md R588, 60_exceptions.md R632, R633). -/

namespace Sys2Proof.Machine

open Claim

/-! ## Creates -/

/-- A create command over the pool `p`: `put k` is the state with the new record in slot `k` (R588). -/
def created {α : Type} (s : State) (kind : Kind) (p : List (Option α)) (put : Nat → State) : Result :=
  finish s Config.nullResult do
    needInit s
    let k ← needSlot p
    pure (put k, resOne (handleWord kind k))

theorem freeSlot_of_lowestFree {α : Type} {p : List (Option α)} {k : Nat} (h : LowestFree p k) : freeSlot p = some k :=
  freeSlot_some.2 ⟨h.1, fun j hj => (h.2 j hj).imp fun _ => poolGet_some.2⟩

theorem created_of_uninit {α : Type} {s : State} (h : s.eng.state = .uninit) (kind : Kind) (p : List (Option α))
    (put : Nat → State) : created s kind p put = .next (failed s .notInit 0xFFFFFFFF#32) := by
  rw [created, needInit_error.2 ⟨h, rfl⟩]
  rfl

theorem created_of_full {α : Type} {s : State} {p : List (Option α)} (h : s.eng.state ≠ .uninit) (hp : none ∉ p)
    (kind : Kind) (put : Nat → State) : created s kind p put = .next (failed s .poolFull 0xFFFFFFFF#32) := by
  rw [created, needInit_ok.2 h, ok_bind, needSlot_error.2 ⟨hp, rfl⟩]
  rfl

theorem created_of_lowestFree {α : Type} {s : State} {p : List (Option α)} {k : Nat} (h : s.eng.state ≠ .uninit)
    (hk : LowestFree p k) (kind : Kind) (put : Nat → State) :
    created s kind p put = .next (done (put k) (result (handleWord kind k))) := by
  rw [created, needInit_ok.2 h, ok_bind, needSlot_ok.2 (freeSlot_of_lowestFree hk)]
  rfl

/-- The errors of a create: before the first init, and with no slot free. -/
theorem createFails_of_created {α : Type} {i : Instr} {kind : Kind} {pool : State → List (Option α)}
    {put : State → Nat → State} (hi : ∀ s, exec i s = created s kind (pool s) (put s)) : CreateFails i pool :=
  fun s => ⟨fun h => (hi s).trans (created_of_uninit h ..), fun h hp => (hi s).trans (created_of_full h hp ..)⟩

/-! ## Commands on one unit -/

/-- A command on the unit of one kind that ARG0 names, with one operand checked before its body runs (R632). -/
def onUnit {α β : Type} (s : State) (kind : Kind) (p : List (Option α)) (check : Except ErrCode β)
    (body : Nat × α → β → Except ErrCode (State × Res)) : Result :=
  finish s 0 do
    let ku ← unitOf s kind p s.args.a0
    let x ← check
    body ku x

section OnUnit

variable {α β : Type} {s : State} {kind : Kind} {p : List (Option α)} {check : Except ErrCode β}
  {body : Nat × α → β → Except ErrCode (State × Res)}

theorem onUnit_of_badHandle (h : BadHandle s s.args.a0 [kind]) :
    onUnit s kind p check body = .next (failed s .badHandle 0) := by
  rw [onUnit, unitOf_bad h]
  rfl

theorem onUnit_of_badArg {k : Nat} {u : α} (hn : HandleNames s s.args.a0 kind k) (hu : poolGet p k = some u)
    (hc : check = .error .badArg) : onUnit s kind p check body = .next (failed s .badArg 0) := by
  rw [onUnit, unitOf_names hn hu, hc]
  rfl

theorem onUnit_of_ok {k : Nat} {u : α} {x : β} (hn : HandleNames s s.args.a0 kind k) (hu : p[k]? = some (some u))
    (hc : check = .ok x) : onUnit s kind p check body = finish s 0 (body (k, u) x) := by
  rw [onUnit, unitOf_names hn (poolGet_some.2 hu), hc]
  rfl

end OnUnit

theorem needsHandle_of_onUnit {α β : Type} {i : Instr} {kind : Kind} {pool : State → List (Option α)}
    {check : State → Except ErrCode β} {body : State → Nat × α → β → Except ErrCode (State × Res)}
    (hi : ∀ s, exec i s = onUnit s kind (pool s) (check s) (body s)) : NeedsHandle i [kind] :=
  fun s h => (hi s).trans (onUnit_of_badHandle h)

/-- An operand outside its set raises BAD_ARG once the handle names a unit: `hget` is that the handle's slot holds one. -/
theorem refusesArg_of_onUnit {α β : Type} {i : Instr} {kind : Kind} {pool : State → List (Option α)}
    {check : State → Except ErrCode β} {body : State → Nat × α → β → Except ErrCode (State × Res)}
    {refused : State → Prop} (hi : ∀ s, exec i s = onUnit s kind (pool s) (check s) (body s))
    (hget : ∀ {s h k}, HandleNames s h kind k → ∃ u, poolGet (pool s) k = some u)
    (hc : ∀ s, refused s → check s = .error .badArg) : RefusesArg i [kind] refused := by
  intro s kind' k hk hn hr
  obtain rfl := List.mem_singleton.1 hk
  obtain ⟨u, hu⟩ := hget hn
  exact (hi s).trans (onUnit_of_badArg hn hu (hc s hr))

/-! ## Waveform codes (92_eei_decisions.md D9) -/

theorem argWave_ok {c : Word} {w : Wave} (h : c.toNat = waveNumber w) : argWave c = .ok w := by
  cases w <;> simp only [argWave, h, waveNumber]

theorem argWave_bad {c : Word} (h : 4 < c.toNat) : argWave c = .error .badArg := argWave_error.2 ⟨h, rfl⟩

theorem argF_bad {w : Word} (h : B32.isNaN w = true) : argF w = .error .badArg := argF_error.2 ⟨h, rfl⟩

theorem argF_number {w : Word} (h : B32.isNaN w = false) : argF w = .ok w := argF_ok.2 ⟨h, rfl⟩

theorem argNote_bad {w : Word} (h : 127 < w.toNat) : argNote w = .error .badArg := argNote_error.2 ⟨h, rfl⟩

end Sys2Proof.Machine
end

section
/-! The create commands of the sources and of the envelope pool, and the commands of oscillators and polyphonic oscillators
(41_oscillator.md R305-R314, 42_envelope.md R355, R364). -/

namespace Sys2Proof.Machine

/-! ## The commands by their shape -/

theorem exec_oscCreate (s : State) :
    exec .oscCreate s = created s .osc s.osc fun k => s.setOsc k (newOsc s.eng.sr) := rfl

theorem exec_polyCreate (s : State) :
    exec .polyCreate s = created s .poly s.poly fun k => s.setPoly k (newPoly s.eng.sr) := rfl

theorem exec_envCreate (s : State) :
    exec .envCreate s = created s .env s.env fun k => s.setEnv k (newEnv s.eng.sr) := rfl

theorem exec_epoolCreate (s : State) :
    exec .epoolCreate s = created s .epool s.epool fun k => s.setEpool k (newEpool s.eng.sr) := rfl

theorem exec_oscSetFreq (s : State) :
    exec .oscSetFreq s = onUnit s .osc s.osc (argF s.args.a1) fun ku f => pure (s.setOsc ku.1 { ku.2 with
      freq := B32.clamp f Config.fMin Config.fMax
      inc := phaseInc (B32.clamp f Config.fMin Config.fMax) ku.2.sr }, resZero) := rfl

theorem exec_oscSetAmp (s : State) :
    exec .oscSetAmp s = onUnit s .osc s.osc (argF s.args.a1) fun ku a =>
      pure (s.setOsc ku.1 { ku.2 with amp := B32.clamp a B32.zero B32.one }, resZero) := rfl

theorem exec_oscSetWave (s : State) :
    exec .oscSetWave s = onUnit s .osc s.osc (argWave s.args.a1) fun ku w =>
      pure (s.setOsc ku.1 { ku.2 with wave := w }, resZero) := rfl

theorem exec_polyNoteOn (s : State) :
    exec .polyNoteOn s = onUnit s .poly s.poly (argNote s.args.a1) fun ku note =>
      pure (s.setPoly ku.1 { ku.2 with
          voice := ku.2.voice.modify (noteSlot note (ku.2.voice.map (·.note)))
            (voiceOn ku.2.sr note (argVel s.args.a2)) },
        resOne (BitVec.ofNat 32 (noteSlot note (ku.2.voice.map (·.note))))) := rfl

/-- A POLY without its voice `j`'s note, or the same POLY when no voice has the note: the result says which (R313). -/
def polyRelease (s : State) (k : Nat) (u : Poly) : Option Nat → State × Res
  | some j => (s.setPoly k { u with voice := u.voice.modify j fun v => { v with note := none } }, resOne (boolWord true))
  | none => (s, resOne (boolWord false))

theorem exec_polyNoteOff (s : State) :
    exec .polyNoteOff s = onUnit s .poly s.poly (argNote s.args.a1) fun ku note =>
      pure (polyRelease s ku.1 ku.2 (noteIndex (some note) (ku.2.voice.map (·.note)))) := by
  refine congrArg (finish s 0) (bind_congr fun ku => bind_congr fun note => ?_)
  dsimp only
  cases noteIndex (some note) (ku.2.voice.map (·.note)) <;> rfl

theorem exec_polySetWave (s : State) :
    exec .polySetWave s = onUnit s .poly s.poly (argWave s.args.a1) fun ku w =>
      pure (s.setPoly ku.1 { ku.2 with wave := w }, resZero) := rfl

end Sys2Proof.Machine

namespace Sys2Proof

open Machine Claim

/-- Settles O41: the four creates have one shape, and their records are the creation values. -/
theorem createSources : Obligations.CreateSources := by
  unfold Obligations.CreateSources
  refine ⟨createFails_of_created exec_oscCreate, createFails_of_created exec_polyCreate,
    createFails_of_created exec_envCreate, createFails_of_created exec_epoolCreate, fun s k he => ⟨?_, ?_, ?_, ?_⟩⟩
  · exact fun hk => (exec_oscCreate s).trans (created_of_lowestFree he hk ..)
  · exact fun hk => (exec_polyCreate s).trans (created_of_lowestFree he hk ..)
  · exact fun hk => (exec_envCreate s).trans (created_of_lowestFree he hk ..)
  · exact fun hk => (exec_epoolCreate s).trans (created_of_lowestFree he hk ..)

/-- Settles O44: the setters have one shape, a unit and one checked operand. -/
theorem oscSetters : Obligations.OscSetters := by
  unfold Obligations.OscSetters
  refine ⟨⟨decode_encode .oscSetFreq, decode_encode .oscSetAmp, decode_encode .oscSetWave⟩,
    needsHandle_of_onUnit exec_oscSetFreq, needsHandle_of_onUnit exec_oscSetAmp, needsHandle_of_onUnit exec_oscSetWave,
    refusesArg_of_onUnit exec_oscSetFreq HandleNames.osc_get fun _ => argF_bad,
    refusesArg_of_onUnit exec_oscSetAmp HandleNames.osc_get fun _ => argF_bad,
    refusesArg_of_onUnit exec_oscSetWave HandleNames.osc_get fun _ => argWave_bad,
    fun s k u hn hu => ⟨fun hf => ?_, fun ha => ?_, fun w hw => ?_⟩⟩
  · exact (exec_oscSetFreq s).trans (onUnit_of_ok hn hu (argF_number hf))
  · exact (exec_oscSetAmp s).trans (onUnit_of_ok hn hu (argF_number ha))
  · exact (exec_oscSetWave s).trans (onUnit_of_ok hn hu (argWave_ok hw))

/-- Settles O45: the commands have one shape, a unit and one checked operand; a note's voice is found by `noteIndex`. -/
theorem polyCommands : Obligations.PolyCommands := by
  unfold Obligations.PolyCommands
  refine ⟨⟨decode_encode .polyNoteOn, decode_encode .polyNoteOff, decode_encode .polySetWave⟩,
    needsHandle_of_onUnit exec_polyNoteOn, needsHandle_of_onUnit exec_polyNoteOff, needsHandle_of_onUnit exec_polySetWave,
    refusesArg_of_onUnit exec_polyNoteOn HandleNames.poly_get fun _ => argNote_bad,
    refusesArg_of_onUnit exec_polyNoteOff HandleNames.poly_get fun _ => argNote_bad,
    refusesArg_of_onUnit exec_polySetWave HandleNames.poly_get fun _ => argWave_bad,
    fun s k u hn hu => ⟨fun note ha => ?on, fun note j ha hd hj => ?mapped, fun note ha habs => ?unmapped,
      fun w hw => (exec_polySetWave s).trans (onUnit_of_ok hn hu (argWave_ok hw))⟩⟩
  case on => exact (exec_polyNoteOn s).trans (onUnit_of_ok hn hu (argNote_ok.2 ha))
  case mapped =>
    rw [exec_polyNoteOff, onUnit_of_ok hn hu (argNote_ok.2 ha),
      noteIndex_eq_some hj fun i hi he => hi.ne (hd i j note he hj)]
    rfl
  case unmapped =>
    rw [exec_polyNoteOff, onUnit_of_ok hn hu (argNote_ok.2 ha), noteIndex_eq_none habs]
    rfl

end Sys2Proof
end

section
/-! Blocks of samples: a block is its first part and then the rest, from the state the first part left (41_oscillator.md R304,
R310, 42_envelope.md R352, 43_effects.md R400). -/

namespace Sys2Proof.Machine

/-! ## Generators -/

/-- A generator that gives one sample and goes on from the next state gives a block in two parts. -/
theorem generate_add {σ α : Type} {gen : Nat → σ → List α × σ} {out : σ → α} {next : σ → σ} (h0 : ∀ s, gen 0 s = ([], s))
    (hs : ∀ n s, gen (n + 1) s = (out s :: (gen n (next s)).1, (gen n (next s)).2)) (m n : Nat) (s : σ) :
    gen (m + n) s = ((gen m s).1 ++ (gen n (gen m s).2).1, (gen n (gen m s).2).2) := by
  induction m generalizing s with
  | zero => rw [Nat.zero_add, h0]; rfl
  | succ m ih => rw [Nat.succ_add, hs, hs, ih]; rfl

theorem oscGen_add (m n : Nat) (u : Osc) (k : Nat) :
    oscGen (m + n) u k =
      ((oscGen m u k).1 ++ (oscGen n (oscGen m u k).2.1 (oscGen m u k).2.2).1,
        (oscGen n (oscGen m u k).2.1 (oscGen m u k).2.2).2) :=
  generate_add (gen := fun n (s : Osc × Nat) => oscGen n s.1 s.2) (out := fun s => (oscStep s.1 s.2).1)
    (next := fun s => (oscStep s.1 s.2).2) (fun _ => rfl) (fun _ _ => rfl) m n (u, k)

theorem polyGen_add (m n : Nat) (u : Poly) (k : Nat) :
    polyGen (m + n) u k =
      ((polyGen m u k).1 ++ (polyGen n (polyGen m u k).2.1 (polyGen m u k).2.2).1,
        (polyGen n (polyGen m u k).2.1 (polyGen m u k).2.2).2) :=
  generate_add (gen := fun n (s : Poly × Nat) => polyGen n s.1 s.2) (out := fun s => (polyStep s.1 s.2).1)
    (next := fun s => (polyStep s.1 s.2).2) (fun _ => rfl) (fun _ _ => rfl) m n (u, k)

theorem envGen_add (m n : Nat) (e : Env) :
    envGen (m + n) e = ((envGen m e).1 ++ (envGen n (envGen m e).2).1, (envGen n (envGen m e).2).2) :=
  generate_add (out := fun e => (envStep e).level) (next := envStep) (fun _ => rfl) (fun _ _ => rfl) m n e

/-! ## Effects -/

/-- `run` processes a block and then another as it processes the two together. -/
def Streams {α : Type} (run : α → List Frame → List Frame × α) : Prop :=
  ∀ u fs gs, run u (fs ++ gs) = ((run u fs).1 ++ (run (run u fs).2 gs).1, (run (run u fs).2 gs).2)

theorem runFrames_cons {α : Type} (step : α → Frame → Frame × α) (u : α) (f : Frame) (fs : List Frame) :
    runFrames step u (f :: fs) = ((step u f).1 :: (runFrames step (step u f).2 fs).1, (runFrames step (step u f).2 fs).2) :=
  rfl

theorem streams_runFrames {α : Type} (step : α → Frame → Frame × α) : Streams (runFrames step) := by
  intro u fs gs
  induction fs generalizing u with
  | nil => rfl
  | cons f fs ih => rw [List.cons_append, runFrames_cons, ih]; rfl

/-- A run that a bypass bit switches, and that keeps the bit, streams: bypassed or not, both parts take the same branch. -/
theorem streams_of_bypass {α : Type} {bypass : α → Bool} {step : α → Frame → Frame × α}
    {run : α → List Frame → List Frame × α} (hrun : ∀ u fs, run u fs = if bypass u then (fs, u) else runFrames step u fs)
    (hkeep : ∀ u fs, bypass (run u fs).2 = bypass u) : Streams run := by
  intro u fs gs
  rw [hrun u (fs ++ gs), hrun (run u fs).2 gs, hkeep u fs, hrun u fs]
  cases bypass u
  · exact streams_runFrames step u fs gs
  · rfl

theorem streams_dlyRun : Streams dlyRun :=
  streams_of_bypass (bypass := fun u => u.mix.bypass) (fun _ _ => rfl) fun u fs => by rw [dlyRun_mix]

theorem streams_fltRun : Streams fltRun :=
  streams_of_bypass (bypass := fun u => u.mix.bypass) (fun _ _ => rfl) fun u fs => by rw [fltRun_mix]

theorem streams_revRun : Streams revRun :=
  streams_of_bypass (bypass := fun u => u.mix.bypass) (fun _ _ => rfl) fun u fs => by rw [revRun_mix]

theorem poolSet_poolSet {α : Type} (p : List (Option α)) (i : Nat) (u v : α) :
    poolSet (poolSet p i u) i v = poolSet p i v := List.set_set ..

theorem fxRun_dly {s : State} {i : Nat} {u : Dly} (h : poolGet s.dly i = some u) (fs : List Frame) :
    fxRun s (.dly i) fs = ((dlyRun u fs).1, s.setDly i (dlyRun u fs).2) := by simp only [fxRun, h]

theorem fxRun_flt {s : State} {i : Nat} {u : Flt} (h : poolGet s.flt i = some u) (fs : List Frame) :
    fxRun s (.flt i) fs = ((fltRun u fs).1, s.setFlt i (fltRun u fs).2) := by simp only [fxRun, h]

theorem fxRun_rev {s : State} {i : Nat} {u : Rev} (h : poolGet s.rev i = some u) (fs : List Frame) :
    fxRun s (.rev i) fs = ((revRun u fs).1, s.setRev i (revRun u fs).2) := by simp only [fxRun, h]

/-- Processing streams on the effect a reference names (R400): the record stored after the first part is the one read for
the second, and its slot is written over. -/
theorem fxRun_append (s : State) (r : FxRef) (fs gs : List Frame) :
    fxRun s r (fs ++ gs) = ((fxRun s r fs).1 ++ (fxRun (fxRun s r fs).2 r gs).1, (fxRun (fxRun s r fs).2 r gs).2) := by
  cases r with
  | dly i =>
    cases h : poolGet s.dly i with
    | none => simp only [fxRun, h]
    | some u =>
      have hnext := poolGet_poolSet_self (dlyRun u fs).2 (poolGet_lt h)
      rw [fxRun_dly h, fxRun_dly h, fxRun_dly hnext, streams_dlyRun, State.setDly, State.setDly, State.setDly,
        poolSet_poolSet]
  | flt i =>
    cases h : poolGet s.flt i with
    | none => simp only [fxRun, h]
    | some u =>
      have hnext := poolGet_poolSet_self (fltRun u fs).2 (poolGet_lt h)
      rw [fxRun_flt h, fxRun_flt h, fxRun_flt hnext, streams_fltRun, State.setFlt, State.setFlt, State.setFlt,
        poolSet_poolSet]
  | rev i =>
    cases h : poolGet s.rev i with
    | none => simp only [fxRun, h]
    | some u =>
      have hnext := poolGet_poolSet_self (revRun u fs).2 (poolGet_lt h)
      rw [fxRun_rev h, fxRun_rev h, fxRun_rev hnext, streams_revRun, State.setRev, State.setRev, State.setRev,
        poolSet_poolSet]

end Sys2Proof.Machine

namespace Sys2Proof

open Machine

/-- Settles O28: every generator goes on from the state a sample leaves, and so does every effect. -/
theorem blocksAreStreaming : Obligations.BlocksAreStreaming := by
  unfold Obligations.BlocksAreStreaming
  exact ⟨fun m n k u => ⟨oscGen_length n u k, oscGen_add m n u k⟩,
    fun m n k u => ⟨polyGen_length n u k, polyGen_add m n u k⟩,
    fun m n e => ⟨envGen_length n e, envGen_snd n e, envGen_add m n e⟩,
    fun s r fs gs => ⟨fxRun_length s r fs, fxRun_append s r fs gs⟩⟩

end Sys2Proof
end

section
/-! One sample of an oscillator and of a polyphonic oscillator (41_oscillator.md R302, R303, R310). -/

namespace Sys2Proof.Machine

/-! ## A waveform's value -/

theorem oscValue_table {w : Wave} (h : w ≠ .noise) (p : Word) (k : Nat) : oscValue w p k = tableRead w p := by
  cases w <;> first | rfl | exact absurd rfl h

theorem noiseNext_table {w : Wave} (h : w ≠ .noise) (k : Nat) : noiseNext w k = k := by
  cases w <;> first | rfl | exact absurd rfl h

/-! ## The voices of a polyphonic oscillator -/

/-- The mapped voices, in ascending order (R310). -/
def mappedVoices (vs : List Voice) : List Voice := vs.filter (fun v => v.note.isSome)

theorem mappedVoices_cons_none {v : Voice} (h : v.note = none) (vs : List Voice) :
    mappedVoices (v :: vs) = mappedVoices vs := by simp [mappedVoices, h]

theorem mappedVoices_cons_some {v : Voice} {n : Fin 128} (h : v.note = some n) (vs : List Voice) :
    mappedVoices (v :: vs) = v :: mappedVoices vs := by simp [mappedVoices, h]

/-- The sum of the mapped voices' samples of a table waveform, each addition rounded (R310). -/
def tableSum (w : Wave) (vs : List Voice) (acc : Word) : Word :=
  vs.foldl (fun acc v => B32.add acc (B32.mul v.amp (tableRead w v.phase))) acc

/-- The sum of the mapped voices' Noise samples, one draw each from counter `k` on: the voice at index `j` takes draw
`k + j` (R310). -/
def noiseSum (k : Nat) (vs : List (Voice × Nat)) (acc : Word) : Word :=
  vs.foldl (fun acc p => B32.add acc (B32.mul p.1.amp (noiseDraw (k + p.2)))) acc

theorem voicesStep_table {w : Wave} (hw : w ≠ .noise) (vs : List Voice) (acc : Word) (k : Nat) :
    voicesStep w vs acc k = (tableSum w (mappedVoices vs) acc, vs.map voiceNext, k) := by
  induction vs generalizing acc with
  | nil => rfl
  | cons v vs ih =>
    rw [voicesStep, List.map_cons, voiceNext]
    cases hn : v.note with
    | none => rw [mappedVoices_cons_none hn]; simp only [ih]; rfl
    | some n =>
      rw [mappedVoices_cons_some hn]; simp only [oscValue_table hw, noiseNext_table hw, ih]; rfl

theorem voicesStep_noise (vs : List Voice) (acc : Word) (k j : Nat) :
    voicesStep .noise vs acc (k + j) =
      (noiseSum k ((mappedVoices vs).zipIdx j) acc, vs.map voiceNext, k + j + (mappedVoices vs).length) := by
  induction vs generalizing acc j with
  | nil => rfl
  | cons v vs ih =>
    rw [voicesStep, List.map_cons, voiceNext]
    cases hn : v.note with
    | none => rw [mappedVoices_cons_none hn]; simp only [ih]; rfl
    | some n =>
      rw [mappedVoices_cons_some hn]
      simp only [noiseNext, Nat.add_assoc, ih, List.zipIdx_cons, List.length_cons]
      rw [Nat.add_comm 1]
      rfl

theorem mappedCount_eq_zero {vs : List Voice} (h : ∀ v ∈ vs, v.note = none) : mappedCount vs = 0 := by
  rw [mappedCount, List.length_eq_zero_iff, List.filter_eq_nil_iff]
  exact fun v hv => by simp [h v hv]

theorem mappedCount_ne_zero {vs : List Voice} (h : ∃ v ∈ vs, v.note ≠ none) : mappedCount vs ≠ 0 := by
  obtain ⟨v, hv, hn⟩ := h
  exact (List.length_pos_of_mem (List.mem_filter.2 ⟨hv, Option.isSome_iff_ne_none.2 hn⟩)).ne'

/-- A sounding POLY's sample (R310). -/
theorem polyStep_of_mapped {u : Poly} (h : ∃ v ∈ u.voice, v.note ≠ none) (k : Nat) :
    polyStep u k = (B32.div (voicesStep u.wave u.voice B32.zero k).1 (B32.ofNat (mappedCount u.voice)),
      { u with voice := (voicesStep u.wave u.voice B32.zero k).2.1 }, (voicesStep u.wave u.voice B32.zero k).2.2) := by
  rw [polyStep, if_neg (mappedCount_ne_zero h)]

end Sys2Proof.Machine

namespace Sys2Proof

open Machine

/-- Settles O54: the table read and the oscillator's sample are their rules, and a polyphonic oscillator's voices add up by
induction on them, the Noise draws counted along. -/
theorem sampleSteps : Obligations.SampleSteps := by
  unfold Obligations.SampleSteps
  refine ⟨fun _ _ => rfl, fun u k => ⟨fun hw => ?_, fun hw => ?_⟩, fun u k hu => ?_, fun u k hu hw => ?_,
    fun u k hu hw => ?_⟩
  · rw [oscStep, oscValue_table hw, noiseNext_table hw]; rfl
  · rw [oscStep, hw]; rfl
  · rw [polyStep, if_pos (mappedCount_eq_zero hu)]; rfl
  · rw [polyStep_of_mapped hu, voicesStep_table hw]; rfl
  · have hsum := voicesStep_noise u.voice B32.zero k 0
    rw [Nat.add_zero] at hsum
    rw [polyStep_of_mapped hu, hw, hsum]; rfl

end Sys2Proof
end

section
/-! The wavetables' exact entries (41_oscillator.md R300). -/

namespace Sys2Proof.B32

open Machine (Nearest)

/-- A ratio that a finite value has rounds to that value. -/
theorem exact_of_nearest {r x : Word} {num : Int} {den : Nat} (h : Nearest r num den) (hd : 0 < den)
    (hx : isFinite x = true) (hnum : num = den * val x) : isFinite r = true ∧ val r = val x := by
  obtain ⟨hr, hlo, hhi⟩ := between_of_nearest h hd hx hx hnum.ge hnum.le
  exact ⟨hr, hhi.antisymm hlo⟩

/-- A ratio whose divisor is a power of two is exact when the numerator fits the significand (R9). -/
theorem ofRatio_two_pow {k : Int} (hk : k.natAbs < 2 ^ 24) {e : Nat} (he : e ≤ 149) :
    isFinite (ofRatio k (2 ^ e)) = true ∧ 2 ^ e * val (ofRatio k (2 ^ e)) = k * 2 ^ 149 := by
  have hsign : ∀ n : Nat, signed (decide (k < 0)) (k.natAbs * n) = k * n := fun n => by
    have h := signed_mul (decide (k < 0)) false k.natAbs n
    rw [signed_natAbs fun _ => rfl] at h
    simpa using h.symm
  obtain ⟨hx, hval⟩ := ofUnits_exact (decide (k < 0)) ⟨k.natAbs, 149 - e, hk, by omega, rfl⟩
  have hpow : (2 : Int) ^ 149 = 2 ^ e * 2 ^ (149 - e) := by rw [← pow_add, Nat.add_sub_cancel' he]
  have hnum : signed (decide (k < 0)) (k.natAbs * 2 ^ 149) =
      (2 ^ e : Nat) * val (ofUnits (decide (k < 0)) (k.natAbs * 2 ^ (149 - e)) 1) := by
    simp only [hval, hsign, Nat.cast_pow, Nat.cast_ofNat, hpow]
    ring
  have hlt : k.natAbs * 2 ^ 149 < 2 ^ 1024 := lt_of_threshold (representable_integer hk.le).lt
  obtain ⟨hfin, heq⟩ := exact_of_nearest (nearest_ofUnits _ (Nat.two_pow_pos e) hlt) (Nat.two_pow_pos e) hx hnum
  refine ⟨hfin, ?_⟩
  rw [ofRatio, heq, hval, hsign, Nat.cast_pow, Nat.cast_ofNat, hpow]
  ring

end Sys2Proof.B32

namespace Sys2Proof.Machine

open B32

/-! ## SQUARE, TRIANGLE and SAWTOOTH -/

/-- The triangle's numerator: its entry `i` times 1024 (R300). -/
def triangleNum (i : Nat) : Int := if i ≤ 1024 then i else if i ≤ 3072 then 2048 - i else (i : Int) - 4096

theorem tableEntry_triangle (i : Nat) : tableEntry .triangle i = B32.ofRatio (triangleNum i) (2 ^ 10) := by
  simp only [tableEntry, triangleNum, apply_ite (B32.ofRatio · (2 ^ 10))]
  rfl

theorem triangleNum_bounds {i : Nat} (h : i < 4096) : -1024 ≤ triangleNum i ∧ triangleNum i ≤ 1024 := by
  unfold triangleNum; split_ifs <;> omega

theorem tableEntry_sawtooth (i : Nat) : tableEntry .sawtooth i = B32.ofRatio ((i : Int) - 2048) (2 ^ 11) := rfl

theorem triangle_exact {i : Nat} (h : i < 4096) :
    isFinite (tableEntry .triangle i) = true ∧ 1024 * val (tableEntry .triangle i) = triangleNum i * 2 ^ 149 := by
  have := triangleNum_bounds h
  rw [tableEntry_triangle]
  exact ofRatio_two_pow (e := 10) (by omega) (by omega)

theorem sawtooth_exact {i : Nat} (h : i < 4096) :
    isFinite (tableEntry .sawtooth i) = true ∧ 2048 * val (tableEntry .sawtooth i) = ((i : Int) - 2048) * 2 ^ 149 := by
  rw [tableEntry_sawtooth]
  exact ofRatio_two_pow (e := 11) (by omega) (by omega)

theorem val_square (i : Nat) : val (tableEntry .square i) = if i < 2048 then 2 ^ 149 else -2 ^ 149 := by
  rw [tableEntry]
  split
  · decide
  · decide

end Sys2Proof.Machine

namespace Sys2Proof

open Machine

/-- Settles O25: the triangle's and the sawtooth's entries are ratios by a power of two, which are exact. -/
theorem wavetables : Obligations.Wavetables := by
  unfold Obligations.Wavetables
  refine ⟨fun i hi => ⟨val_square i, (triangle_exact hi).2, (sawtooth_exact hi).2⟩, ?_⟩
  exact ⟨by decide, by decide, by decide +kernel, by decide +kernel, by decide +kernel, by decide +kernel⟩

end Sys2Proof
end

section
/-! The sine's series: Taylor's theorem, and how far the fixed-point sum of `Elem` lies from the sine (00_scope.md R11). -/

namespace Sys2Proof.Elem

/-! ## Taylor's theorem -/

/-- The first `k` terms of the alternating series y^j/j! - y^(j+2)/(j+2)! + ..., of the sine for `j = 1`. -/
noncomputable def taylorSum (y : ℝ) (k j : ℕ) : ℝ :=
  ∑ m ∈ Finset.range k, (-1) ^ m * (y ^ (j + 2 * m) / (j + 2 * m).factorial)

theorem taylorSum_succ (y : ℝ) (k j : ℕ) :
    taylorSum y (k + 1) j = y ^ j / j.factorial - taylorSum y k (j + 2) := by
  rw [taylorSum, Finset.sum_range_succ', taylorSum, sub_eq_add_neg, add_comm, ← Finset.sum_neg_distrib]
  congr 1
  · simp
  · refine Finset.sum_congr rfl fun m _ => ?_
    rw [show j + 2 * (m + 1) = j + 2 + 2 * m by ring]
    ring

/-- The imaginary part of the exponential's partial sum at `y·i` is the sine's. -/
theorem im_exp_sum (y : ℝ) (k : ℕ) :
    (∑ m ∈ Finset.range (2 * k), (y * Complex.I) ^ m / m.factorial).im = taylorSum y k 1 := by
  induction k with
  | zero => simp [taylorSum]
  | succ k ih =>
    have heven : (y * Complex.I) ^ (2 * k) = ((-1) ^ k * y ^ (2 * k) : ℝ) := by
      rw [mul_pow, pow_mul Complex.I, Complex.I_sq]; push_cast; ring
    have hterm : (y * Complex.I) ^ (2 * k) / (2 * k).factorial = ((-1) ^ k * y ^ (2 * k) / (2 * k).factorial : ℝ) := by
      rw [heven]; push_cast; ring
    have hterm' : (y * Complex.I) ^ (2 * k + 1) / (2 * k + 1).factorial =
        ((-1) ^ k * (y ^ (1 + 2 * k) / (1 + 2 * k).factorial) : ℝ) * Complex.I := by
      rw [pow_succ, heven, Nat.add_comm 1]; push_cast; ring
    rw [Nat.mul_succ, Finset.sum_range_succ, Finset.sum_range_succ, Complex.add_im, Complex.add_im, ih, hterm, hterm',
      taylorSum, taylorSum, Finset.sum_range_succ, Complex.ofReal_im, Complex.im_ofReal_mul, Complex.I_im, add_zero, mul_one]

/-- Taylor's theorem for the sine (R11). -/
theorem sin_sub_taylorSum {y : ℝ} (h0 : 0 ≤ y) {k : ℕ} (h : y ≤ k) :
    |Real.sin y - taylorSum y k 1| ≤ y ^ (2 * k) / (2 * k).factorial * 2 := by
  have hnorm : ‖(y * Complex.I : ℂ)‖ = y := by simp [abs_of_nonneg h0]
  have hb := Complex.exp_bound' (x := y * Complex.I) (n := 2 * k) (by
    rw [hnorm, div_le_iff₀ (by positivity)]; push_cast; linarith)
  rw [hnorm] at hb
  refine le_trans ?_ hb
  rw [← im_exp_sum, ← Complex.exp_ofReal_mul_I_im, ← Complex.sub_im]
  exact Complex.abs_im_le_norm _

/-- The sine's steepest slope is 1. -/
theorem abs_sin_sub_sin_le (x y : ℝ) : |Real.sin x - Real.sin y| ≤ |x - y| := by
  rw [Real.sin_sub_sin, mul_assoc, abs_mul, abs_mul, abs_two]
  have h1 := Real.abs_sin_le_abs (x := (x - y) / 2)
  have h2 := Real.abs_cos_le_one ((x + y) / 2)
  rw [abs_div, abs_two] at h1
  nlinarith [abs_nonneg (Real.sin ((x - y) / 2)), abs_nonneg (Real.cos ((x + y) / 2))]

/-! ## The fixed-point sum -/

/-- One unit of the fixed-point numbers: 256 fraction bits. -/
noncomputable def fixUlp : ℝ := 1 / 2 ^ 256

theorem fixUlp_pos : 0 < fixUlp := by unfold fixUlp; positivity

theorem two_pow_256 : (2 : ℝ) ^ 256 = 1 / fixUlp := by rw [fixUlp, one_div_one_div]

theorem fixUlp_le_one : fixUlp ≤ 1 := by unfold fixUlp; norm_num

/-- The number a fixed-point integer stands for. -/
noncomputable def fixVal (v : Int) : ℝ := v * fixUlp

theorem fixVal_add (v w : Int) : fixVal (v + w) = fixVal v + fixVal w := by rw [fixVal, Int.cast_add, add_mul]; rfl

theorem fixVal_sub (v w : Int) : fixVal (v - w) = fixVal v - fixVal w := by rw [fixVal, Int.cast_sub, sub_mul]; rfl

/-- A natural quotient drops less than 1. -/
theorem natDiv_near (m n : ℕ) : |((m / n : ℕ) : ℝ) - m / n| ≤ 1 := by
  have h1 := Nat.floor_le (show (0 : ℝ) ≤ m / n by positivity)
  have h2 := Nat.lt_floor_add_one ((m : ℝ) / n)
  rw [Nat.floor_div_eq_div] at h1 h2
  rw [abs_le]
  constructor <;> linarith

/-- A fixed-point product, divided by a count and truncated, is off by one unit. -/
theorem fixVal_mul_div_near (a b : ℕ) {c : ℕ} (hc : 0 < c) :
    |fixVal (a * b / (2 ^ 256 * c) : ℕ) - fixVal a * fixVal b / c| ≤ fixUlp := by
  have hu := fixUlp_pos
  have hc' : (0 : ℝ) < c := by exact_mod_cast hc
  have h := natDiv_near (a * b) (2 ^ 256 * c)
  rw [Nat.cast_mul, Nat.cast_mul, Nat.cast_pow, Nat.cast_ofNat, two_pow_256] at h
  have e : fixVal (a * b / (2 ^ 256 * c) : ℕ) - fixVal a * fixVal b / c =
      (((a * b / (2 ^ 256 * c) : ℕ) : ℝ) - (a : ℝ) * b / (1 / fixUlp * c)) * fixUlp := by
    simp only [fixVal, Int.cast_natCast]
    field_simp
  rw [e, abs_mul, abs_of_pos hu]
  exact mul_le_of_le_one_left hu.le h

/-- The next term of the series, from a term and a square that are each a little off. -/
theorem next_term_near {a b τ ρ B δ c : ℝ} (ha : |a - τ| ≤ B * δ) (hb : |b - ρ| ≤ δ) (hτ : 0 ≤ τ ∧ τ ≤ B)
    (hρ : 0 ≤ ρ ∧ ρ ≤ 11) (hδ : δ ≤ 1) (hc : 6 ≤ c) : |a * b / c - τ * ρ / c| ≤ 3 * (B * δ) := by
  have hδ0 : 0 ≤ δ := (abs_nonneg _).trans hb
  have hB0 : 0 ≤ B := hτ.1.trans hτ.2
  have hbabs : |b| ≤ 12 := by
    have := abs_sub_abs_le_abs_sub b ρ
    rw [abs_of_nonneg hρ.1] at this
    linarith
  have hprod : |a * b - τ * ρ| ≤ 13 * (B * δ) := by
    calc |a * b - τ * ρ| = |(a - τ) * b + τ * (b - ρ)| := by ring_nf
      _ ≤ |a - τ| * |b| + |τ| * |b - ρ| := by rw [← abs_mul, ← abs_mul]; exact abs_add_le _ _
      _ ≤ B * δ * 12 + B * δ := by rw [abs_of_nonneg hτ.1]; gcongr; exact hτ.2
      _ = 13 * (B * δ) := by ring
  rw [← sub_div, abs_div, abs_of_pos (by linarith : 0 < c), div_le_iff₀ (by linarith)]
  nlinarith [mul_nonneg hB0 hδ0]

/-- `t` is the fixed-point term y^j/j!: `B` bounds the term and, in units, its error. -/
def TermNear (y B : ℝ) (j t : ℕ) : Prop := y ^ j / j.factorial ≤ B ∧ |fixVal t - y ^ j / j.factorial| ≤ B * fixUlp

theorem term_add_two (y : ℝ) (j : ℕ) :
    y ^ (j + 2) / (j + 2).factorial = y ^ j / j.factorial * y ^ 2 / ↑((j + 1) * (j + 2)) := by
  rw [Nat.factorial_succ, Nat.factorial_succ]
  push_cast
  field_simp
  ring

section Sum

variable {y : ℝ} {r2 : ℕ} (hy0 : 0 ≤ y) (hy : y ^ 2 ≤ 11) (hr : |fixVal r2 - y ^ 2| ≤ fixUlp)
include hy0 hy hr

/-- One step of the sum makes the error at most four times as large. -/
theorem TermNear.next {B : ℝ} {j t : ℕ} (hB : 1 ≤ B) (hj : 1 ≤ j) (h : TermNear y B j t) :
    TermNear y (4 * B) (j + 2) (t * r2 / (2 ^ 256 * ((j + 1) * (j + 2)))) := by
  obtain ⟨hτ, ht⟩ := h
  have hu := fixUlp_pos
  have hτ0 : 0 ≤ y ^ j / j.factorial := by positivity
  have hc : (6 : ℝ) ≤ ↑((j + 1) * (j + 2)) := by
    exact_mod_cast Nat.mul_le_mul (by omega : 2 ≤ j + 1) (by omega : 3 ≤ j + 2)
  have hround := fixVal_mul_div_near t r2 (c := (j + 1) * (j + 2)) (by positivity)
  have hstep := next_term_near ht hr ⟨hτ0, hτ⟩ ⟨by positivity, hy⟩ fixUlp_le_one hc
  rw [← term_add_two] at hstep
  constructor
  · rw [term_add_two, div_le_iff₀ (by linarith)]
    nlinarith
  · calc _ ≤ fixUlp + 3 * (B * fixUlp) := (abs_sub_le ..).trans (add_le_add hround hstep)
      _ ≤ 4 * B * fixUlp := by nlinarith

/-- The sum of `k` terms is within 5^k of the first term's error. -/
theorem alternating_near (k : ℕ) {B : ℝ} {j t : ℕ} (hB : 1 ≤ B) (hj : 1 ≤ j) (h : TermNear y B j t) :
    |fixVal (alternating r2 k j t) - taylorSum y k j| ≤ 5 ^ k * (B * fixUlp) := by
  have hu := fixUlp_pos
  induction k generalizing B j t with
  | zero =>
    have : 0 ≤ B * fixUlp := by positivity
    simpa [alternating, taylorSum, fixVal] using this
  | succ k ih =>
    have hrest := ih (by linarith) (by omega) (h.next hy0 hy hr hB hj)
    rw [alternating, taylorSum_succ]
    generalize alternating r2 k (j + 2) _ = v at *
    have hpow : (1 : ℝ) ≤ 5 ^ k := one_le_pow₀ (by norm_num)
    calc |fixVal (t - v) - (y ^ j / j.factorial - taylorSum y k (j + 2))|
        = |(fixVal t - y ^ j / j.factorial) - (fixVal v - taylorSum y k (j + 2))| := by
          rw [fixVal_sub, sub_sub_sub_comm]
      _ ≤ B * fixUlp + 5 ^ k * (4 * B * fixUlp) := (abs_sub _ _).trans (add_le_add h.2 hrest)
      _ ≤ 5 ^ (k + 1) * (B * fixUlp) := by
        rw [pow_succ]
        nlinarith [mul_le_mul_of_nonneg_right hpow (by positivity : 0 ≤ B * fixUlp)]

end Sum

/-- The fixed-point sine series of `k` terms: `sinFix` is the one of 50. -/
def sinTerms (k r : ℕ) : Int := alternating (r * r / 2 ^ 256) k 1 r

theorem sinFix_eq (r : ℕ) : sinFix r = sinTerms 50 r := rfl

/-- The series is near the sine: the truncations' share, then Taylor's. -/
theorem sinTerms_near {k r : ℕ} {c : ℝ} (hc : fixVal r ≤ c) (hk : c ≤ k) (hc' : c ≤ 33 / 10) :
    |fixVal (sinTerms k r) - Real.sin (fixVal r)| ≤ 5 ^ k * (4 * fixUlp) + c ^ (2 * k) / (2 * k).factorial * 2 := by
  have hu := fixUlp_pos
  have hy0 : 0 ≤ fixVal r := by simp only [fixVal, Int.cast_natCast]; positivity
  have hsq := fixVal_mul_div_near r r Nat.one_pos
  rw [Nat.mul_one, Nat.cast_one, div_one, ← pow_two (fixVal r)] at hsq
  have hterm : TermNear (fixVal r) 4 1 r := ⟨by norm_num; linarith, by norm_num; exact hu.le⟩
  have hsum := alternating_near hy0 (by nlinarith) hsq k (by norm_num) le_rfl hterm
  have htaylor := sin_sub_taylorSum hy0 (hc.trans hk)
  rw [abs_sub_comm] at htaylor
  refine (abs_sub_le _ _ _).trans (add_le_add hsum (htaylor.trans ?_))
  gcongr

/-! ## The table's angles -/

/-- The angle of entry `j` in fixed point (R300). -/
def sineAngle (j : ℕ) : ℕ := twoPi512 * j / 2 ^ 268

/-- sin(2π·i/4096), the number entry `i` rounds. -/
noncomputable def sineAt (i : ℕ) : ℝ := Real.sin (2 * Real.pi * i / 4096)

theorem twoPi512_near : |twoPi512 * fixUlp ^ 2 - 2 * Real.pi| ≤ 2 / 10 ^ 20 := by
  have h1 := Real.pi_gt_d20
  have h2 := Real.pi_lt_d20
  have h3 : (6.28318530717958647692 : ℝ) ≤ twoPi512 * fixUlp ^ 2 := by norm_num [twoPi512, fixUlp]
  have h4 : twoPi512 * fixUlp ^ 2 ≤ (6.28318530717958647693 : ℝ) := by norm_num [twoPi512, fixUlp]
  rw [abs_le]
  constructor <;> linarith

theorem sineAngle_near {j : ℕ} (hj : j ≤ 2048) :
    |fixVal (sineAngle j) - 2 * Real.pi * j / 4096| ≤ 1 / 10 ^ 20 + fixUlp := by
  have hu := fixUlp_pos
  have hj' : (j : ℝ) / 4096 ≤ 1 / 2 := by
    have : (j : ℝ) ≤ 2048 := by exact_mod_cast hj
    linarith
  have hfloor := natDiv_near (twoPi512 * j) (2 ^ 268)
  rw [Nat.cast_mul, Nat.cast_pow, Nat.cast_ofNat, pow_add (2 : ℝ) 256 12, two_pow_256] at hfloor
  have e : fixVal (sineAngle j) - 2 * Real.pi * j / 4096 =
      (((twoPi512 * j / 2 ^ 268 : ℕ) : ℝ) - twoPi512 * j / (1 / fixUlp * 2 ^ 12)) * fixUlp +
        (twoPi512 * fixUlp ^ 2 - 2 * Real.pi) * (j / 4096) := by
    rw [fixVal, sineAngle, Int.cast_natCast]
    field_simp
    ring
  rw [e]
  refine (abs_add_le _ _).trans ?_
  rw [abs_mul, abs_mul, abs_of_pos hu, abs_of_nonneg (by positivity : (0 : ℝ) ≤ j / 4096)]
  have h1 := mul_le_mul_of_nonneg_right hfloor hu.le
  have h2 := mul_le_mul twoPi512_near hj' (by positivity) (by norm_num)
  linarith

/-- The series of entry `j`'s angle is near sin(2π·j/4096), `c` bounding the angle. -/
theorem sinTerms_sineAngle_near {j k : ℕ} {c : ℝ} (hj : j ≤ 2048) (hc : j * (16 / 10 ^ 4) + 1 / 10 ^ 9 ≤ c)
    (hk : c ≤ k) (hc' : c ≤ 33 / 10)
    (herr : 5 ^ k * (4 * fixUlp) + c ^ (2 * k) / (2 * k).factorial * 2 ≤ 1 / 10 ^ 20) :
    |fixVal (sinTerms k (sineAngle j)) - sineAt j| ≤ 1 / 2 ^ 64 := by
  have hangle := sineAngle_near hj
  have hu : fixUlp ≤ 1 / 10 ^ 20 := by norm_num [fixUlp]
  have hpi := Real.pi_lt_d4
  have hle : fixVal (sineAngle j) ≤ c := by
    have h := (abs_le.1 hangle).2
    have : Real.pi * j ≤ 3.1416 * j := by gcongr
    linarith
  calc _ ≤ _ := abs_sub_le _ (Real.sin (fixVal (sineAngle j))) _
    _ ≤ 1 / 10 ^ 20 + (1 / 10 ^ 20 + fixUlp) :=
      add_le_add ((sinTerms_near hle hk hc').trans herr) ((abs_sin_sub_sin_le _ _).trans hangle)
    _ ≤ 1 / 2 ^ 64 := by norm_num; linarith

/-- The entry's own series is near the sine, in both halves of the wave's first half. -/
theorem sinFix_near {j : ℕ} (hj : j ≤ 2048) : |fixVal (sinFix (sineAngle j)) - sineAt j| ≤ 1 / 2 ^ 64 := by
  have : (j : ℝ) ≤ 2048 := by exact_mod_cast hj
  rw [sinFix_eq]
  exact sinTerms_sineAngle_near (c := 33 / 10) hj (by linarith) (by norm_num) le_rfl (by norm_num [fixUlp, Nat.factorial])

/-- In the first quarter of the wave a series of 13 terms is as good for rounding. -/
theorem sinTerms_quarter_near {j : ℕ} (hj : j ≤ 1024) :
    |fixVal (sinTerms 13 (sineAngle j)) - sineAt j| ≤ 1 / 2 ^ 64 := by
  have : (j : ℝ) ≤ 1024 := by exact_mod_cast hj
  exact sinTerms_sineAngle_near (c := 164 / 100) (by omega) (by linarith) (by norm_num) (by norm_num)
    (by norm_num [fixUlp, Nat.factorial])

end Sys2Proof.Elem
end

section
/-! A number that pins one magnitude: the rounding of every number near it is that magnitude (00_scope.md R9). -/

namespace Sys2Proof.B32

/-- `m` is the one magnitude nearest to `σ` units: `σ` lies strictly between the midpoints to its neighbours. -/
def Pins (m : ℕ) (σ : ℝ) : Prop :=
  0 < m ∧ (magUnits (m - 1) : ℝ) + magUnits m < 2 * σ ∧ 2 * σ < (magUnits m : ℝ) + magUnits (m + 1)

theorem Pins.lt_dist {m m' : ℕ} {σ : ℝ} (h : Pins m σ) (hne : m' ≠ m) : |σ - magUnits m| < |σ - magUnits m'| := by
  obtain ⟨h0, hlo, hhi⟩ := h
  have hmono {k l : ℕ} (hkl : k ≤ l) : (magUnits k : ℝ) ≤ magUnits l := by
    exact_mod_cast magUnits_strictMono.monotone hkl
  have hprev := hmono (Nat.sub_le m 1)
  have hnext := hmono (Nat.le_succ m)
  rcases Nat.lt_or_gt_of_ne hne with hlt | hgt
  · have := hmono (by omega : m' ≤ m - 1)
    rw [abs_of_pos (by linarith : 0 < σ - magUnits m'), abs_lt]
    have : (magUnits m' : ℝ) < magUnits m := by exact_mod_cast magUnits_strictMono hlt
    constructor <;> linarith
  · have := hmono (by omega : m + 1 ≤ m')
    rw [abs_sub_comm σ (magUnits m'), abs_of_pos (by linarith : 0 < (magUnits m' : ℝ) - σ), abs_lt]
    have : (magUnits m : ℝ) < magUnits m' := by exact_mod_cast magUnits_strictMono hgt
    constructor <;> linarith

theorem Pins.pos {m : ℕ} {σ : ℝ} (h : Pins m σ) : 0 < σ := by
  have h1 : (0 : ℝ) ≤ magUnits (m - 1) := by positivity
  have h2 : (0 : ℝ) ≤ magUnits m := by positivity
  linarith [h.2.1]

/-- No word is nearer, whatever its sign. -/
theorem Pins.nearest {m : ℕ} {σ : ℝ} (h : Pins m σ) (x : Word) : |σ - magUnits m| ≤ |σ - val x| := by
  have hle (k : ℕ) : |σ - magUnits m| ≤ |σ - magUnits k| := by
    by_cases hk : k = m
    · rw [hk]
    · exact (h.lt_dist hk).le
  rw [val_eq_signed, units_eq]
  cases sign x
  · exact_mod_cast hle (mag x)
  · have h0 := hle 0
    have hu : (0 : ℝ) ≤ magUnits (mag x) := by positivity
    rw [magUnits_zero, Nat.cast_zero, sub_zero, abs_of_pos (a := σ) h.pos] at h0
    rw [signed_true, Int.cast_neg, sub_neg_eq_add, Int.cast_natCast,
      abs_of_pos (a := σ + magUnits (mag x)) (by linarith [h.pos])]
    linarith

/-- Rounding a ratio finds the magnitude that is pinned by it. -/
theorem Pins.encMag_eq {m n d : ℕ} (h : Pins m (n / d)) (hd : 0 < d) (hn : n < (2 ^ 25 - 1) * 2 ^ 252 * d)
    (hn' : n < 2 ^ 1024) : encMag n d = m := by
  by_contra hne
  have hmin := ((encMag_nearest hd ((Nat.div_le_self n d).trans_lt hn') hn).2 m).1
  have hd' : (0 : ℝ) < d := by exact_mod_cast hd
  have hdist (k : ℕ) : ((((n : Int) - d * magUnits k).natAbs : ℕ) : ℝ) = |(n / d : ℝ) - magUnits k| * d := by
    rw [Nat.cast_natAbs, ← abs_of_pos hd', ← abs_mul, abs_of_pos hd']
    push_cast
    congr 1
    field_simp
  have hlt := mul_lt_mul_of_pos_right (h.lt_dist hne) hd'
  rw [← hdist, ← hdist] at hlt
  exact absurd (Nat.cast_lt.1 hlt) hmin.not_gt

end Sys2Proof.B32
end

section
/-! The sine table (41_oscillator.md R300): every entry is the value nearest to the sine, since no sine of the table lies
near a midpoint of two values. -/

namespace Sys2Proof.Elem

open B32

/-! ## The check on the first quarter of the wave -/

/-- The numbers within 2^-63 of the fixed-point number `w` are clear of the midpoints beside the magnitude `m`. -/
def clearOfMidpoints (w m : ℕ) : Bool :=
  decide (0 < m) && decide (2 ^ 256 * (magUnits (m - 1) + magUnits m) < (w - 2 ^ 193) * 2 ^ 150) &&
    decide ((w + 2 ^ 193) * 2 ^ 150 < 2 ^ 256 * (magUnits m + magUnits (m + 1)))

theorem clearOfMidpoints_iff {w m : ℕ} :
    clearOfMidpoints w m = true ↔ 0 < m ∧ 2 ^ 256 * (magUnits (m - 1) + magUnits m) < (w - 2 ^ 193) * 2 ^ 150 ∧
      (w + 2 ^ 193) * 2 ^ 150 < 2 ^ 256 * (magUnits m + magUnits (m + 1)) := by
  simp only [clearOfMidpoints, Bool.and_eq_true, decide_eq_true_eq, and_assoc]

theorem fixVal_margin : fixVal (2 ^ 193 : ℕ) = 1 / 2 ^ 63 := by norm_num [fixVal, fixUlp]

theorem fixVal_mul_two_pow (w : ℕ) : fixVal w * 2 ^ 150 = w * 2 ^ 150 / 2 ^ 256 := by
  rw [fixVal, fixUlp, Int.cast_natCast]; ring

theorem lt_fixVal_iff (w a : ℕ) : 2 ^ 256 * a < w * 2 ^ 150 ↔ (a : ℝ) < fixVal w * 2 ^ 150 := by
  rw [fixVal_mul_two_pow, lt_div_iff₀ (by positivity), mul_comm (a : ℝ)]
  exact_mod_cast Iff.rfl

theorem fixVal_lt_iff (w a : ℕ) : w * 2 ^ 150 < 2 ^ 256 * a ↔ fixVal w * 2 ^ 150 < a := by
  rw [fixVal_mul_two_pow, div_lt_iff₀ (by positivity), mul_comm (a : ℝ)]
  exact_mod_cast Iff.rfl

/-- Every number that near pins the magnitude. -/
theorem pins_of_clearOfMidpoints {w m : ℕ} (h : clearOfMidpoints w m = true) {s : ℝ}
    (hs : |fixVal w - s| ≤ 1 / 2 ^ 63) : Pins m (s * 2 ^ 149) := by
  obtain ⟨h0, hlo, hhi⟩ := clearOfMidpoints_iff.1 h
  have hw : 2 ^ 193 ≤ w := by omega
  rw [lt_fixVal_iff, Int.natCast_sub hw, fixVal_sub, fixVal_margin, Nat.cast_add] at hlo
  rw [fixVal_lt_iff, Int.natCast_add, fixVal_add, fixVal_margin, Nat.cast_add] at hhi
  obtain ⟨hs1, hs2⟩ := abs_le.1 hs
  exact ⟨h0, by linarith, by linarith⟩

/-- 13 terms of the series at entry `j`'s angle. -/
def quarterSine (j : ℕ) : ℕ := (sinTerms 13 (sineAngle j)).toNat

/-- The table's one numerical fact: no sine of the first quarter lies near a midpoint of two values. -/
theorem quarterSine_clearOfMidpoints :
    ∀ j ∈ List.range' 1 1024, clearOfMidpoints (quarterSine j) (encMag (quarterSine j * 2 ^ 149) (2 ^ 256)) = true := by
  decide +kernel

theorem quarterSine_near {j : ℕ} (hj : j ≤ 1024) (hpos : 0 < quarterSine j) :
    |fixVal (quarterSine j) - sineAt j| ≤ 1 / 2 ^ 64 := by
  rw [quarterSine] at *
  rw [Int.toNat_of_nonneg (by omega)]
  exact sinTerms_quarter_near hj

/-! ## The whole wave by its first quarter -/

theorem sineAt_reflect {j : ℕ} (hj : j ≤ 2048) : sineAt (2048 - j) = sineAt j := by
  rw [sineAt, sineAt, ← Real.sin_pi_sub, Nat.cast_sub hj]
  congr 1
  push_cast
  ring

theorem sineAt_add_half (j : ℕ) : sineAt (2048 + j) = -sineAt j := by
  rw [sineAt, sineAt, ← Real.sin_add_pi]
  congr 1
  push_cast
  ring

theorem sineAt_zero : sineAt 0 = 0 := by simp [sineAt]

/-- In the first half of the wave one magnitude is pinned by every number near the sine. -/
theorem exists_pins_sineAt {j : ℕ} (h0 : 0 < j) (h : j < 2048) :
    ∃ m, ∀ s, |s - sineAt j| ≤ 1 / 2 ^ 64 → Pins m (s * 2 ^ 149) := by
  obtain ⟨q, hq0, hq, hsin⟩ : ∃ q, 0 < q ∧ q ≤ 1024 ∧ sineAt q = sineAt j := by
    by_cases hj : j ≤ 1024
    · exact ⟨j, h0, hj, rfl⟩
    · exact ⟨2048 - j, by omega, by omega, sineAt_reflect h.le⟩
  have hclear := quarterSine_clearOfMidpoints q (List.mem_range'_1.2 ⟨hq0, by omega⟩)
  have hnear := quarterSine_near hq (by have := (clearOfMidpoints_iff.1 hclear).2.1; omega)
  rw [hsin] at hnear
  refine ⟨_, fun s hs => pins_of_clearOfMidpoints hclear ?_⟩
  rw [abs_sub_comm] at hs
  calc _ ≤ 1 / 2 ^ 64 + 1 / 2 ^ 64 := (abs_sub_le _ _ _).trans (add_le_add hnear hs)
    _ = 1 / 2 ^ 63 := by norm_num

theorem abs_sineAt_le (j : ℕ) : |sineAt j| ≤ 1 := Real.abs_sin_le_one _

set_option exponentiation.threshold 600 in
/-- In the first half of the wave the series is positive, and the magnitude it rounds to is finite and pinned by the sine. -/
theorem sineFix_pins {j : ℕ} (h0 : 0 < j) (h : j < 2048) :
    ∃ w : ℕ, 0 < w ∧ sinFix (sineAngle j) = w ∧ encMag (w * 2 ^ 149) (2 ^ 256) < 0x7F800000 ∧
      Pins (encMag (w * 2 ^ 149) (2 ^ 256)) (sineAt j * 2 ^ 149) := by
  obtain ⟨m, hm⟩ := exists_pins_sineAt h0 h
  have hnear := sinFix_near h.le
  have hpins := hm _ hnear
  have hu := fixUlp_pos
  have hpos : 0 < sinFix (sineAngle j) := by
    have := hpins.pos
    rw [fixVal] at this
    exact_mod_cast pos_of_mul_pos_left (pos_of_mul_pos_left this (by positivity)) hu.le
  obtain ⟨w, hw⟩ := Int.eq_ofNat_of_zero_le hpos.le
  rw [hw] at hnear hpins hpos
  have hsmall : w < 2 ^ 257 := by
    have h1 := (abs_le.1 hnear).2
    have h2 := (abs_le.1 (abs_sineAt_le j)).2
    have h3 : (w : ℝ) * fixUlp < 2 := by rw [fixVal, Int.cast_natCast] at h1; linarith
    rw [← lt_div_iff₀ hu, div_eq_mul_one_div, ← two_pow_256, ← pow_succ'] at h3
    exact_mod_cast h3
  have hlt : w * 2 ^ 149 < (2 ^ 25 - 1) * 2 ^ 252 * 2 ^ 256 := by omega
  have hlt' : w * 2 ^ 149 < 2 ^ 1024 := mul_lt_of_units_lt (hsmall.trans (by norm_num)) two_pow_149_lt
  have hratio : ((w * 2 ^ 149 : ℕ) : ℝ) / (2 ^ 256 : ℕ) = fixVal w * 2 ^ 149 := by
    rw [Nat.cast_mul, Nat.cast_pow, Nat.cast_pow, Nat.cast_ofNat, two_pow_256, fixVal, Int.cast_natCast]
    field_simp
  rw [← hratio] at hpins
  have heq := hpins.encMag_eq (by decide) hlt hlt'
  refine ⟨w, by exact_mod_cast hpos, hw,
    (encMag_nearest (by decide) ((Nat.div_le_self _ _).trans_lt hlt') hlt).1, ?_⟩
  rw [heq]
  exact hm _ (by simp)

/-! ## The entries -/

/-- What `roundFix` keeps of a nonzero number: its sign, and the magnitude nearest to it. -/
theorem roundFix_eq {v : Int} (hv : v ≠ 0) (b : Bool) :
    roundFix v b = ofUnits (decide (v < 0)) (v.natAbs * 2 ^ 149) (2 ^ 256) := by rw [roundFix, if_neg hv]

theorem sineEntry_zero {i : ℕ} (h : i % 2048 = 0) : sineEntry i = zero := if_pos h

/-- Past the zeros an entry is the rounded series of its angle in the half wave, signed by the half. -/
theorem sineEntry_eq {i w : ℕ} (hi : i < 4096) (h : i % 2048 ≠ 0) (hw : 0 < w)
    (hfix : sinFix (sineAngle (i % 2048)) = w) :
    sineEntry i = ofUnits (decide (2048 ≤ i)) (w * 2 ^ 149) (2 ^ 256) := by
  have hfix' : sinFix (twoPi512 * (i % 2048) / 2 ^ 268) = w := hfix
  rw [sineEntry, if_neg h, hfix', Nat.mod_eq_of_lt hi]
  by_cases hhalf : i < 2048
  · rw [if_pos hhalf, roundFix_eq (by omega), decide_eq_false (by omega), decide_eq_false (by omega), Int.natAbs_natCast]
  · rw [if_neg hhalf, roundFix_eq (by omega), decide_eq_true (by omega), decide_eq_true (by omega), Int.natAbs_neg,
      Int.natAbs_natCast]

/-- Every entry is finite and no word is nearer to the sine, in units of 2^-149. -/
theorem sineEntry_nearest {i : ℕ} (hi : i < 4096) :
    isFinite (sineEntry i) = true ∧
      ∀ x, |sineAt i * 2 ^ 149 - val (sineEntry i)| ≤ |sineAt i * 2 ^ 149 - val x| := by
  by_cases h : i % 2048 = 0
  · have hsin : sineAt i = 0 := by
      obtain rfl | rfl : i = 0 ∨ i = 2048 + 0 := by omega
      · exact sineAt_zero
      · rw [sineAt_add_half, sineAt_zero, neg_zero]
    have hval : val zero = 0 := by decide
    rw [sineEntry_zero h, hsin, hval]
    exact ⟨by decide, fun x => by simp⟩
  · obtain ⟨w, hw, hfix, hfin, hpins⟩ := sineFix_pins (Nat.pos_of_ne_zero h) (Nat.mod_lt i (by decide))
    rw [sineEntry_eq hi h hw hfix, val_ofUnits, isFinite_iff, mag_ofUnits]
    refine ⟨hfin, fun x => ?_⟩
    by_cases hhalf : i < 2048
    · rw [Nat.mod_eq_of_lt hhalf] at hpins
      rw [decide_eq_false (by omega), signed_false, Int.cast_natCast]
      exact hpins.nearest x
    · have hsin : sineAt i = -sineAt (i % 2048) := by rw [← sineAt_add_half, show 2048 + i % 2048 = i by omega]
      have hflip (c : ℝ) : |-sineAt (i % 2048) * 2 ^ 149 - c| = |sineAt (i % 2048) * 2 ^ 149 - -c| :=
        (abs_neg _).symm.trans (congrArg (|·|) (by ring))
      have hneg := hpins.nearest (neg x)
      rw [val_neg, Int.cast_neg, ← hflip] at hneg
      rw [decide_eq_true (by omega), signed_true, hsin, Int.cast_neg, Int.cast_natCast, hflip, neg_neg]
      exact hneg

end Sys2Proof.Elem

namespace Sys2Proof

open Machine B32 Elem

/-- Settles O26: the entry's series lies within 2^-64 of the sine, and no number that near the sine is as near a midpoint, so
the entry is the one value the sine pins. -/
theorem sineTableIsNearest : Obligations.SineTableIsNearest := by
  unfold Obligations.SineTableIsNearest
  intro i hi
  obtain ⟨hfin, hnear⟩ := sineEntry_nearest hi
  refine ⟨hfin, fun x _ => ?_⟩
  have hscale (y : Word) : |Real.sin (2 * Real.pi * i / 4096) - (val y : ℝ) / 2 ^ 149| =
      |sineAt i * 2 ^ 149 - val y| / 2 ^ 149 := by
    have hpos : (0 : ℝ) < 2 ^ 149 := by positivity
    rw [← abs_of_pos hpos, ← abs_div, abs_of_pos hpos, sub_div, mul_div_cancel_right₀ _ hpos.ne', sineAt]
  rw [hscale, hscale]
  exact div_le_div_of_nonneg_right (hnear x) (by positivity)

end Sys2Proof
end

section
/-! The output bound of an oscillator (41_oscillator.md R315): a table read between two entries of [-1, 1] stays there, and the
amplitude scales it down. -/

namespace Sys2Proof.B32

open Machine (Nearest)

/-! ## Samples: the values from -1 to 1 -/

/-- A finite value of at most 1 in size. -/
def IsSample (x : Word) : Prop := isFinite x = true ∧ -2 ^ 149 ≤ val x ∧ val x ≤ 2 ^ 149

theorem isSample_iff_between {x : Word} : IsSample x ↔ Between 0xBF800000#32 x one := by
  have h1 : val (0xBF800000#32) = -2 ^ 149 := by decide
  have h2 : val one = 2 ^ 149 := by decide
  rw [IsSample, Between, h1, h2]

theorem val_abs (x : Word) : val (abs x) = units x := by
  rw [val_eq_signed, sign_abs, units_eq, mag_abs, signed_false]; rfl

theorem isFinite_abs (x : Word) : isFinite (abs x) = isFinite x := by rw [isFinite, isFinite, mag_abs]

/-! ## Rounding near 1 -/

/-- Up to 2, multiples of 2^126 units are representable. -/
theorem exists_representable_near {m : Nat} (hm : m ≤ 2 ^ 150) :
    ∃ g, Representable g ∧ m ≤ g + 2 ^ 125 ∧ g ≤ m + 2 ^ 125 := by
  obtain ⟨q, hlo, hhi⟩ : ∃ q, q * 2 ^ 126 ≤ m + 2 ^ 125 ∧ m + 2 ^ 125 < q * 2 ^ 126 + 2 ^ 126 :=
    ⟨_, Nat.div_mul_le_self _ _, Nat.lt_div_mul_add (Nat.two_pow_pos 126)⟩
  refine ⟨q * 2 ^ 126, ?_, by omega, by omega⟩
  rcases (by omega : q ≤ 2 ^ 24).eq_or_lt with rfl | hlt
  · exact ⟨1, 150, by decide, by decide, by norm_num⟩
  · exact ⟨q, 126, hlt, by decide, rfl⟩

/-- A sum of two samples rounds to within half a unit of the last place below 2. -/
theorem val_near_of_nearest {r : Word} {n : Int} (h : Nearest r n 1) (hn : n.natAbs ≤ 2 ^ 150) :
    isFinite r = true ∧ (n - val r).natAbs ≤ 2 ^ 125 := by
  rw [Nearest, if_neg (by omega)] at h
  obtain ⟨hfin, hmin⟩ := h
  obtain ⟨g, hg, hlo, hhi⟩ := exists_representable_near hn
  obtain ⟨hx, hval⟩ := ofUnits_exact (decide (n < 0)) hg
  have hle := (hmin _ hx).1
  rw [hval] at hle
  have hs : signed (decide (n < 0)) n.natAbs = n := signed_natAbs fun _ => rfl
  refine ⟨hfin, ?_⟩
  cases hneg : decide (n < 0) <;> rw [hneg] at hs hle <;> simp only [signed_true, signed_false] at hs hle <;> omega

/-- The midpoint past 1 rounds to 1, whose significand is even. -/
theorem isSample_of_nearest {r : Word} {n : Int} (h : Nearest r n 1) (hn : n.natAbs ≤ 2 ^ 149 + 2 ^ 125) : IsSample r := by
  rw [Nearest, if_neg (by omega)] at h
  obtain ⟨hfin, hmin⟩ := h
  have hone : magUnits 0x3F800000 = 2 ^ 149 := by decide
  have hnext : magUnits 0x3F800001 = 2 ^ 149 + 2 ^ 126 := by decide
  have hu : units r ≤ 2 ^ 149 := by
    by_contra hc
    have hm : 0x3F800001 ≤ mag r := by
      rw [units_eq, ← hone, not_le, magUnits_strictMono.lt_iff_lt] at hc
      exact hc
    have hgap : 2 ^ 149 + 2 ^ 126 ≤ units r := by
      rw [units_eq, ← hnext]; exact magUnits_strictMono.monotone hm
    have htie : units r = 2 ^ 149 + 2 ^ 126 → mag r = 0x3F800001 := fun he =>
      magUnits_strictMono.injective (by rw [hnext, ← units_eq, he])
    have h1 := hmin one (by decide)
    have h2 := hmin 0xBF800000#32 (by decide)
    have e1 : val one = 2 ^ 149 := by decide
    have e2 : val (0xBF800000#32) = -2 ^ 149 := by decide
    rw [e1] at h1
    rw [e2] at h2
    have hr := val_eq_signed r
    cases hs : sign r <;> rw [hs] at hr <;> simp only [signed_true, signed_false] at hr <;> omega
  rw [← natAbs_val] at hu
  exact ⟨hfin, by omega, by omega⟩

end Sys2Proof.B32

namespace Sys2Proof.Machine

open B32 Elem

/-! ## Table reads -/

/-- An integer at least as near to a number of [-N, N] as -N and N are is within [-N, N] too. -/
theorem between_of_nearer {σ : ℝ} {v N : Int} (hσ : |σ| ≤ N) (hlo : |σ - v| ≤ |σ - (-N : Int)|)
    (hhi : |σ - v| ≤ |σ - N|) : -N ≤ v ∧ v ≤ N := by
  obtain ⟨h1, h2⟩ := abs_le.1 hσ
  rw [Int.cast_neg, abs_of_nonneg (by linarith : 0 ≤ σ - -(N : ℝ))] at hlo
  rw [abs_of_nonpos (by linarith : σ - N ≤ 0)] at hhi
  have hle := le_abs_self (σ - v)
  have hge := neg_abs_le (σ - v)
  constructor
  · exact_mod_cast (by linarith : -(N : ℝ) ≤ v)
  · exact_mod_cast (by linarith : (v : ℝ) ≤ N)

theorem isSample_sineEntry {i : Nat} (hi : i < 4096) : IsSample (sineEntry i) := by
  obtain ⟨hfin, hnear⟩ := sineEntry_nearest hi
  have e1 : val one = 2 ^ 149 := by decide
  have e2 : val (0xBF800000#32) = -2 ^ 149 := by decide
  have hσ : |sineAt i * 2 ^ 149| ≤ ((2 ^ 149 : Int) : ℝ) := by
    rw [abs_mul, abs_of_pos (by positivity : (0 : ℝ) < 2 ^ 149), Int.cast_pow, Int.cast_ofNat]
    exact mul_le_of_le_one_left (by positivity) (abs_sineAt_le i)
  exact ⟨hfin, between_of_nearer hσ (e2 ▸ hnear 0xBF800000#32) (e1 ▸ hnear one)⟩

theorem isSample_tableEntry {w : Wave} (hw : w ≠ .noise) {i : Nat} (hi : i < 4096) : IsSample (tableEntry w i) := by
  cases w with
  | sine => exact isSample_sineEntry hi
  | square => rw [tableEntry]; split <;> exact ⟨by decide, by decide, by decide⟩
  | triangle =>
    obtain ⟨hfin, hval⟩ := triangle_exact hi
    have := triangleNum_bounds hi
    exact ⟨hfin, by omega, by omega⟩
  | sawtooth =>
    obtain ⟨hfin, hval⟩ := sawtooth_exact hi
    exact ⟨hfin, by omega, by omega⟩
  | noise => exact absurd rfl hw

/-- Two adjacent samples are interpolated to a sample: the difference may round past the exact one, by too little to pass the
midpoint beyond 1 (R302). -/
theorem isSample_interpolate {t0 t1 fr : Word} (h0 : IsSample t0) (h1 : IsSample t1) (hfr : Between B32.zero fr B32.one) :
    IsSample (interpolate t0 t1 fr) := by
  obtain ⟨f0, l0, u0⟩ := h0
  obtain ⟨f1, l1, u1⟩ := h1
  obtain ⟨ffr, hfr0, hfr1⟩ := hfr
  have ez : val B32.zero = 0 := by decide
  have eo : val B32.one = 2 ^ 149 := by decide
  rw [ez] at hfr0
  rw [eo] at hfr1
  obtain ⟨fd, hd⟩ := val_near_of_nearest (nearest_sub f1 f0) (by omega)
  have hstep : isFinite (mul fr (sub t1 t0)) = true ∧ min 0 (val (sub t1 t0)) ≤ val (mul fr (sub t1 t0)) ∧
      val (mul fr (sub t1 t0)) ≤ max 0 (val (sub t1 t0)) := by
    rcases Int.le_total 0 (val (sub t1 t0)) with hs | hs
    · obtain ⟨fe, he0, he1⟩ := mul_between ffr fd (by decide : isFinite B32.zero = true) fd
        (by rw [ez, mul_zero]; exact mul_nonneg hfr0 hs) (Int.mul_le_mul_of_nonneg_right hfr1 hs)
      exact ⟨fe, by omega, by omega⟩
    · obtain ⟨fe, he0, he1⟩ := mul_between ffr fd fd (by decide : isFinite B32.zero = true)
        (Int.mul_le_mul_of_nonpos_right hfr1 hs) (by rw [ez, mul_zero]; exact mul_nonpos_of_nonneg_of_nonpos hfr0 hs)
      exact ⟨fe, by omega, by omega⟩
  obtain ⟨fe, he0, he1⟩ := hstep
  exact isSample_of_nearest (nearest_add f0 fe) (by omega)

/-- The table position of a phase lies in [0, 4096] (R302). -/
theorem tableIdx_between {p : Word} (hp : PhaseOk p) : Between B32.zero (tableIdx p) 0x45800000#32 := by
  obtain ⟨fp, hp0, hp1⟩ := phaseOk_iff.1 hp
  have ez : val B32.zero = 0 := by decide
  have eo : val B32.one = 2 ^ 149 := by decide
  have ek : val (0x45800000#32) = 2 ^ 161 := by decide
  obtain ⟨fq, hq0, hq1⟩ := div_part_between fp (by decide : isFinite Config.twoPi = true) hp0 hp1.le (by decide)
  exact mul_between fq (by decide) (by decide) (by decide) (by rw [ez, ek]; omega) (by rw [ek]; omega)

/-- The fraction of a table position lies in [0, 1] (R302). -/
theorem fraction_between {x : Word} (hx : Between B32.zero x 0x45800000#32) :
    Between B32.zero (sub x (ofInt (B32.floor x))) B32.one := by
  obtain ⟨fx, hx0, hx1⟩ := hx
  have ez : val B32.zero = 0 := by decide
  have eo : val B32.one = 2 ^ 149 := by decide
  have ek : val (0x45800000#32) = 2 ^ 161 := by decide
  have hlo := floor_le_val x
  have hhi := val_lt_floor_add_one x
  obtain ⟨ff, hf⟩ := ofInt_exact (k := B32.floor x) (by omega)
  exact sub_between fx ff (by decide) (by decide) (by omega) (by omega)

theorem isSample_tableRead {w : Wave} (hw : w ≠ .noise) {p : Word} (hp : PhaseOk p) : IsSample (tableRead w p) :=
  isSample_interpolate (isSample_tableEntry hw (by omega)) (isSample_tableEntry hw (by omega))
    (fraction_between (tableIdx_between hp))

/-- A waveform's value is a sample, a Noise draw by the oracle's range (R303). -/
theorem isSample_oscValue (w : Wave) {p : Word} (hp : PhaseOk p) (k : Nat) : IsSample (oscValue w p k) := by
  by_cases hw : w = .noise
  · subst hw
    exact isSample_iff_between.2 ((inRange_iff (by decide) (by decide)).1 (noiseDraw_inRange k))
  · rw [oscValue_table hw]
    exact isSample_tableRead hw hp

/-! ## The amplitude -/

/-- A sample scaled by an amplitude of [0, 1] is no larger than the amplitude: rounding does not pass it (R315). -/
theorem abs_mul_le {a v : Word} (ha : InRange 0 a 0x3F800000#32) (hv : IsSample v) :
    B32.le (B32.abs (mul a v)) (B32.abs a) = true := by
  obtain ⟨fa, ha0, -⟩ := (inRange_iff (by decide) (by decide)).1 ha
  obtain ⟨fv, hv0, hv1⟩ := hv
  have ez : val (0 : Word) = 0 := by decide
  rw [ez] at ha0
  have hneg : isFinite (B32.neg a) = true := by simpa using fa
  obtain ⟨fr, hr0, hr1⟩ := mul_between fa fv hneg fa (by rw [val_neg]; nlinarith) (by nlinarith)
  rw [val_neg] at hr0
  rw [le_iff_val (by rwa [isFinite_abs]) (by rwa [isFinite_abs]), val_abs, val_abs, ← natAbs_val, ← natAbs_val]
  omega

end Sys2Proof.Machine

namespace Sys2Proof

open Machine

/-- Settles O27: a waveform's value is a sample of [-1, 1] for a legal phase, and the product with the amplitude rounds to
no more than the amplitude. -/
theorem oscillatorBound : Obligations.OscillatorBound := by
  unfold Obligations.OscillatorBound
  exact fun u k hp ha => abs_mul_le ha (isSample_oscValue u.wave hp k)

end Sys2Proof
end

section
/-! Note maps (42_envelope.md R363, 41_oscillator.md R312) and the rules of one envelope (42_envelope.md R350-R354). -/

namespace Sys2Proof.Machine

/-! ## The slot a note takes -/

section NoteMap

variable {note : Fin 128} {notes : List (Option (Fin 128))}

/-- In an injective map a note's slot is the first that holds it. -/
theorem noteIndex_of_distinct (hd : NotesDistinct notes) {j : Nat} (hj : notes[j]? = some (some note)) :
    noteIndex (some note) notes = some j :=
  noteIndex_eq_some hj fun i hi he => hi.ne (hd i j note he hj)

theorem noteSlot_of_mapped {j : Nat} (h : noteIndex (some note) notes = some j) : noteSlot note notes = j := by
  simp only [noteSlot, h]

theorem noteSlot_of_free {j : Nat} (h : noteIndex (some note) notes = none) (hj : noteIndex none notes = some j) :
    noteSlot note notes = j := by
  simp only [noteSlot, h, hj]

theorem noteSlot_of_full (h : noteIndex (some note) notes = none) (hfull : noteIndex none notes = none) :
    noteSlot note notes = Config.stealSlot := by
  simp only [noteSlot, h, hfull]

end NoteMap

/-! ## One sample of an envelope, by its state -/

section EnvStep

variable {e : Env}

theorem envStep_of_still (h : e.state = .idle ∨ e.state = .sustain) : envStep e = e := by
  rcases h with h | h <;> simp only [envStep, h]

theorem envStep_of_attack (h : e.state = .attack) : envStep e = attackTo e (B32.add e.level e.attackRate) := by
  simp only [envStep, h]

theorem envStep_of_decay (h : e.state = .decay) : envStep e = decayTo e (B32.sub e.level e.decayRate) := by
  simp only [envStep, h]

theorem envStep_of_release (h : e.state = .release) : envStep e = releaseTo e (B32.sub e.level e.releaseRate) := by
  simp only [envStep, h]

theorem envOn_of_idle (h : e.state = .idle) : envOn e = { e with level := Config.envEpsilon, state := .attack } := by
  rw [envOn, if_pos h]

theorem envOn_of_sounding (h : e.state ≠ .idle) : envOn e = { e with state := .attack } := by
  rw [envOn, if_neg h]

end EnvStep

/-- The first of the steps can as well be the last. -/
theorem envSteps_envStep (n : Nat) (e : Env) : envSteps n (envStep e) = envStep (envSteps n e) := by
  induction n generalizing e with
  | zero => rfl
  | succ n ih => exact ih (envStep e)

theorem envSteps_eq_repeat (n : Nat) (e : Env) : envSteps n e = Nat.repeat envStep n e := by
  induction n with
  | zero => rfl
  | succ n ih => exact (envSteps_envStep n e).trans (congrArg envStep ih)

end Sys2Proof.Machine

namespace Sys2Proof

open Machine

/-- Settles O29: in an injective map the first slot with the note is the only one, and the search for a free slot stops
at the lowest. -/
theorem noteAllocation : Obligations.NoteAllocation := by
  unfold Obligations.NoteAllocation
  refine fun note notes hd => ⟨fun j hj => ?own, fun habs j hj hlow => ?free, fun habs hfull => ?full⟩
  case own => exact noteSlot_of_mapped (noteIndex_of_distinct hd hj)
  case free => exact noteSlot_of_free (noteIndex_eq_none habs) (noteIndex_eq_some hj hlow)
  case full => exact noteSlot_of_full (noteIndex_eq_none habs) (noteIndex_eq_none hfull)

/-- Settles O30: each state's step is its branch, and a step keeps an envelope sound and legal. -/
theorem envelopeRules : Obligations.EnvelopeRules := by
  unfold Obligations.EnvelopeRules
  refine ⟨fun e => ⟨rfl, rfl, envStep_of_still, envStep_of_attack, envStep_of_decay, envStep_of_release,
    envOn_of_idle, envOn_of_sounding, rfl⟩, fun e hok hlegal => ?_⟩
  obtain ⟨hok', hkeep⟩ := keeps_envStep e hok
  exact ⟨hkeep hlegal, hok'⟩

end Sys2Proof
end

section
/-! The commands of envelopes and envelope pools (42_envelope.md R356-R362, R365-R369). -/

namespace Sys2Proof.Machine

open Claim

/-! ## Envelopes -/

/-- A setter of the envelope ARG0 names, its operand in ARG1 (R356-R359). -/
def envSetter (f : Word → Env → Env) (s : State) : Result :=
  onUnit s .env s.env (argF s.args.a1) fun ku x => pure (s.setEnv ku.1 (f x ku.2), resZero)

theorem exec_envSetAttack (s : State) : exec .envSetAttack s = envSetter envSetAttackT s := rfl

theorem exec_envSetDecay (s : State) : exec .envSetDecay s = envSetter envSetDecayT s := rfl

theorem exec_envSetSustain (s : State) : exec .envSetSustain s = envSetter envSetSustainL s := rfl

theorem exec_envSetRelease (s : State) : exec .envSetRelease s = envSetter envSetReleaseT s := rfl

theorem envSetter_errors {i : Instr} {f : Word → Env → Env} (hi : ∀ s, exec i s = envSetter f s) :
    NeedsHandle i [.env] ∧ RefusesArg i [.env] (fun s => B32.isNaN s.args.a1 = true) :=
  ⟨needsHandle_of_onUnit hi, refusesArg_of_onUnit hi HandleNames.env_get fun _ => argF_bad⟩

theorem envSetter_of_number {s : State} {k : Nat} {e : Env} (hn : HandleNames s s.args.a0 .env k)
    (he : s.env[k]? = some (some e)) (hx : B32.isNaN s.args.a1 = false) (f : Word → Env → Env) :
    envSetter f s = .next (done (s.setEnv k (f s.args.a1 e)) noResult) :=
  onUnit_of_ok hn he (argF_number hx)

theorem exec_envNoteOn (s : State) :
    exec .envNoteOn s = onUnit s .env s.env (pure ()) fun ku _ => pure (s.setEnv ku.1 (envOn ku.2), resZero) := rfl

theorem exec_envNoteOff (s : State) :
    exec .envNoteOff s = onUnit s .env s.env (pure ()) fun ku _ => pure (s.setEnv ku.1 (envOff ku.2), resZero) := rfl

theorem exec_envGet (s : State) :
    exec .envGet s = onUnit s .env s.env (pure ()) fun ku _ =>
      pure (s, { resZero with r0 := ku.2.level, r1 := envStateWord ku.2.state }) := rfl

/-! ## Envelope pools -/

/-- An EPOOL with `f` applied to every member's envelope (R367, R368). -/
def mapMembers (f : Env → Env) (p : EPool) : EPool :=
  { p with member := p.member.map fun m => { m with env := f m.env } }

theorem exec_epoolNoteOn (s : State) :
    exec .epoolNoteOn s = onUnit s .epool s.epool (argNote s.args.a1) fun kp note =>
      pure (s.setEpool kp.1 { kp.2 with
          member := kp.2.member.modify (noteSlot note (kp.2.member.map (·.note)))
            fun m => { env := envOn m.env, note := some note } },
        resOne (BitVec.ofNat 32 (noteSlot note (kp.2.member.map (·.note))))) := rfl

/-- An EPOOL with its member `j` released and unmapped, or the same EPOOL when no member has the note: the result says
which (R366). -/
def epoolRelease (s : State) (k : Nat) (p : EPool) : Option Nat → State × Res
  | some j => (s.setEpool k { p with member := p.member.modify j fun m => { env := envOff m.env, note := none } },
      resOne (boolWord true))
  | none => (s, resOne (boolWord false))

theorem exec_epoolNoteOff (s : State) :
    exec .epoolNoteOff s = onUnit s .epool s.epool (argNote s.args.a1) fun kp note =>
      pure (epoolRelease s kp.1 kp.2 (noteIndex (some note) (kp.2.member.map (·.note)))) := by
  refine congrArg (finish s 0) (bind_congr fun kp => bind_congr fun note => ?_)
  dsimp only
  cases noteIndex (some note) (kp.2.member.map (·.note)) <;> rfl

/-- The two operands of EPOOL_SET: the selector, then the value (R367). -/
def argParam (sel value : Word) : Except ErrCode (Nat × Word) := do
  let j ← argIndex 3 sel
  let x ← argF value
  pure (j, x)

theorem argParam_bad {sel value : Word} (h : 3 < sel.toNat ∨ B32.isNaN value = true) :
    argParam sel value = .error .badArg := by
  rw [argParam]
  rcases Nat.lt_or_ge 3 sel.toNat with hsel | hsel
  · rw [argIndex_error.2 ⟨hsel, rfl⟩, error_bind]
  · rw [argIndex_ok.2 ⟨hsel, rfl⟩, ok_bind, argF_bad (h.resolve_left hsel.not_gt), error_bind]

theorem argParam_ok {sel value : Word} (hsel : sel.toNat ≤ 3) (hv : B32.isNaN value = false) :
    argParam sel value = .ok (sel.toNat, value) := by
  rw [argParam, argIndex_ok.2 ⟨hsel, rfl⟩, argF_number hv]
  rfl

theorem exec_epoolSet (s : State) :
    exec .epoolSet s = onUnit s .epool s.epool (argParam s.args.a1 s.args.a2) fun kp jx =>
      pure (s.setEpool kp.1 (mapMembers (envSetBy jx.1 jx.2) kp.2), resZero) := by
  refine congrArg (finish s 0) (bind_congr fun kp => ?_)
  simp only [argParam, bind_assoc, pure_bind]
  rfl

theorem exec_epoolSet_of_ok {s : State} {k : Nat} {p : EPool} (hn : HandleNames s s.args.a0 .epool k)
    (hp : s.epool[k]? = some (some p)) (hv : B32.isNaN s.args.a2 = false) {sel : Nat} (hsel : s.args.a1.toNat = sel)
    (hle : sel ≤ 3) :
    exec .epoolSet s = .next (done (s.setEpool k (mapMembers (envSetBy sel s.args.a2) p)) noResult) := by
  subst hsel
  exact (exec_epoolSet s).trans (onUnit_of_ok hn hp (argParam_ok hle hv))

theorem exec_epoolAdvance (s : State) :
    exec .epoolAdvance s = onUnit s .epool s.epool (argCount s.args.a1) fun kp n =>
      pure (s.setEpool kp.1 (mapMembers (envSteps n) kp.2), resZero) := rfl

/-- What EPOOL_GET answers for a member, or BAD_ARG for one that is not there (R369). -/
def epoolRead (s : State) : Option Member → Except ErrCode (State × Res)
  | some m => pure (s, { resZero with r0 := m.env.level, r1 := envStateWord m.env.state, r2 := noteWord m.note })
  | none => .error .badArg

theorem exec_epoolGet (s : State) :
    exec .epoolGet s = onUnit s .epool s.epool (argIndex 7 s.args.a1) fun kp j => epoolRead s kp.2.member[j]? := by
  refine congrArg (finish s 0) (bind_congr fun kp => bind_congr fun j => ?_)
  dsimp only
  cases kp.2.member[j]? <;> rfl

end Sys2Proof.Machine

namespace Sys2Proof

open Machine Claim

/-- Settles O46: the four setters have one shape, and the note commands and the read are commands on one unit with no
operand to check. -/
theorem envCommands : Obligations.EnvCommands := by
  unfold Obligations.EnvCommands
  refine ⟨⟨⟨decode_encode .envSetAttack, decode_encode .envSetDecay, decode_encode .envSetSustain,
      decode_encode .envSetRelease⟩, ?errors, fun s k e hn he hx => ⟨?_, ?_, ?_, ?_⟩⟩,
    ⟨decode_encode .envNoteOn, decode_encode .envNoteOff, decode_encode .envGet⟩,
    needsHandle_of_onUnit exec_envNoteOn, needsHandle_of_onUnit exec_envNoteOff, needsHandle_of_onUnit exec_envGet,
    fun s k e hn he => ⟨?_, ?_, ?_⟩⟩
  case errors =>
    simp only [List.forall_mem_cons]
    exact ⟨envSetter_errors exec_envSetAttack, envSetter_errors exec_envSetDecay, envSetter_errors exec_envSetSustain,
      envSetter_errors exec_envSetRelease, List.forall_mem_nil _⟩
  · exact (exec_envSetAttack s).trans (envSetter_of_number hn he hx envSetAttackT)
  · exact (exec_envSetDecay s).trans (envSetter_of_number hn he hx envSetDecayT)
  · exact (exec_envSetSustain s).trans (envSetter_of_number hn he hx envSetSustainL)
  · exact (exec_envSetRelease s).trans (envSetter_of_number hn he hx envSetReleaseT)
  · exact (exec_envNoteOn s).trans (onUnit_of_ok hn he rfl)
  · exact (exec_envNoteOff s).trans (onUnit_of_ok hn he rfl)
  · exact (exec_envGet s).trans (onUnit_of_ok hn he rfl)

/-- Settles O47: the commands have one shape, a unit and its checked operands; a note's member is found by
`noteIndex`. -/
theorem epoolCommands : Obligations.EpoolCommands := by
  unfold Obligations.EpoolCommands
  refine ⟨⟨⟨decode_encode .epoolNoteOn, decode_encode .epoolNoteOff⟩,
      needsHandle_of_onUnit exec_epoolNoteOn, needsHandle_of_onUnit exec_epoolNoteOff,
      refusesArg_of_onUnit exec_epoolNoteOn HandleNames.epool_get fun _ => argNote_bad,
      refusesArg_of_onUnit exec_epoolNoteOff HandleNames.epool_get fun _ => argNote_bad,
      fun s k p note hn hp ha => ⟨?on, fun j hd hj => ?mapped, fun habs => ?unmapped⟩⟩,
    ⟨decode_encode .epoolSet, decode_encode .epoolAdvance, decode_encode .epoolGet⟩,
    needsHandle_of_onUnit exec_epoolSet, needsHandle_of_onUnit exec_epoolAdvance, needsHandle_of_onUnit exec_epoolGet,
    refusesArg_of_onUnit exec_epoolSet HandleNames.epool_get fun _ => argParam_bad,
    refusesArg_of_onUnit exec_epoolAdvance HandleNames.epool_get fun _ h => argCount_error.2 ⟨h, rfl⟩,
    refusesArg_of_onUnit exec_epoolGet HandleNames.epool_get fun _ h => argIndex_error.2 ⟨h, rfl⟩,
    fun s k p hn hp => ⟨fun hv => ⟨fun hsel => ?attack, fun hsel => ?decay, fun hsel => ?sustain,
      fun hsel => ?release⟩, fun hcount => ?advance, fun m hm hj => ?get⟩⟩
  case on => exact (exec_epoolNoteOn s).trans (onUnit_of_ok hn hp (argNote_ok.2 ha))
  case mapped =>
    rw [exec_epoolNoteOff, onUnit_of_ok hn hp (argNote_ok.2 ha), noteIndex_of_distinct hd hj]
    rfl
  case unmapped =>
    rw [exec_epoolNoteOff, onUnit_of_ok hn hp (argNote_ok.2 ha), noteIndex_eq_none habs]
    rfl
  case attack | decay | sustain | release => exact exec_epoolSet_of_ok hn hp hv hsel (by decide)
  case advance =>
    rw [exec_epoolAdvance, onUnit_of_ok hn hp (argCount_ok.2 ⟨hcount, rfl⟩), funext (envSteps_eq_repeat _)]
    rfl
  case get =>
    rw [exec_epoolGet, onUnit_of_ok hn hp (argIndex_ok.2 ⟨hj, rfl⟩), hm]
    rfl

end Sys2Proof
end

section
/-! The effects' lanes (43_effects.md R400, R401, R403, R407, R408, R414): bypass, the lanes apart, and one lane step. -/

namespace Sys2Proof.Machine

/-! ## A lane runs by itself -/

/-- The words of one side through a lane, one after another. -/
def laneRun {σ : Type} (lane : σ → Word → Word × σ) : σ → List Word → List Word × σ
  | st, [] => ([], st)
  | st, x :: xs => ((lane st x).1 :: (laneRun lane (lane st x).2 xs).1, (laneRun lane (lane st x).2 xs).2)

/-- A frame's step runs `lane` on one side's word and on that side's lane state alone, and leaves the parameters `lane`
reads as they were. -/
def RunsLane {α σ : Type} (step : α → Frame → Frame × α) (lane : α → σ → Word → Word × σ) (side : Frame → Word)
    (state : α → σ) : Prop :=
  ∀ u f, side (step u f).1 = (lane u (state u) (side f)).1 ∧ state (step u f).2 = (lane u (state u) (side f)).2 ∧
    lane (step u f).2 = lane u

section RunsLane

variable {α σ : Type} {step : α → Frame → Frame × α} {lane : α → σ → Word → Word × σ} {side : Frame → Word}
  {state : α → σ} (h : RunsLane step lane side state)
include h

/-- One side of a block is its lane's own run. -/
theorem RunsLane.block (fs : List Frame) (u : α) :
    (runFrames step u fs).1.map side = (laneRun (lane u) (state u) (fs.map side)).1 ∧
      state (runFrames step u fs).2 = (laneRun (lane u) (state u) (fs.map side)).2 := by
  induction fs generalizing u with
  | nil => exact ⟨rfl, rfl⟩
  | cons f fs ih =>
    obtain ⟨hout, hstate, hlane⟩ := h u f
    obtain ⟨hrest, hfinal⟩ := ih (step u f).2
    rw [hlane, hstate] at hrest hfinal
    rw [runFrames_cons, List.map_cons, hout, hrest, hfinal]
    exact ⟨rfl, rfl⟩

/-- Two units with the same parameters and the same state of one lane answer alike on that side when its inputs are the
same, bypassed or not. -/
theorem RunsLane.run_agree {bypass : α → Bool} {run : α → List Frame → List Frame × α}
    (hrun : ∀ u fs, run u fs = if bypass u then (fs, u) else runFrames step u fs) {u v : α} (hlane : lane v = lane u)
    (hbypass : bypass v = bypass u) (hstate : state v = state u) {fs gs : List Frame} (hfg : fs.map side = gs.map side) :
    (run u fs).1.map side = (run v gs).1.map side ∧ state (run u fs).2 = state (run v gs).2 := by
  rw [hrun, hrun, hbypass]
  cases bypass u
  · obtain ⟨hu, hu'⟩ := h.block fs u
    obtain ⟨hv, hv'⟩ := h.block gs v
    rw [hlane, hstate, ← hfg] at hv hv'
    exact ⟨hu.trans hv.symm, hu'.trans hv'.symm⟩
  · exact ⟨hfg, hstate.symm⟩

end RunsLane

/-! ## The lanes of each effect -/

/-- A delay's lane step reads no line but the one it is given. -/
theorem dlyLane_line (u : Dly) (lines : Lanes DelayBuf) : dlyLane { u with line := lines } = dlyLane u := rfl

theorem fltLane_hist (u : Flt) (hists : Lanes Hist) : fltLane { u with hist := hists } = fltLane u := rfl

theorem revLane_line (u : Rev) (lines : Lanes (Taps DelayBuf)) : revLane { u with line := lines } = revLane u := rfl

theorem dlyFrame_left : RunsLane dlyFrame dlyLane (·.1) (·.line.l) := fun u _ => ⟨rfl, rfl, dlyLane_line u _⟩

theorem dlyFrame_right : RunsLane dlyFrame dlyLane (·.2) (·.line.r) := fun u _ => ⟨rfl, rfl, dlyLane_line u _⟩

theorem fltFrame_left : RunsLane fltFrame fltLane (·.1) (·.hist.l) := fun u _ => ⟨rfl, rfl, fltLane_hist u _⟩

theorem fltFrame_right : RunsLane fltFrame fltLane (·.2) (·.hist.r) := fun u _ => ⟨rfl, rfl, fltLane_hist u _⟩

theorem revFrame_left : RunsLane revFrame revLane (·.1) (·.line.l) := fun u _ => ⟨rfl, rfl, revLane_line u _⟩

theorem revFrame_right : RunsLane revFrame revLane (·.2) (·.line.r) := fun u _ => ⟨rfl, rfl, revLane_line u _⟩

/-! ## Blocks, bypassed or not -/

theorem dlyRun_eq (u : Dly) (fs : List Frame) :
    dlyRun u fs = if u.mix.bypass then (fs, u) else runFrames dlyFrame u fs := rfl

theorem fltRun_eq (u : Flt) (fs : List Frame) :
    fltRun u fs = if u.mix.bypass then (fs, u) else runFrames fltFrame u fs := rfl

theorem revRun_eq (u : Rev) (fs : List Frame) :
    revRun u fs = if u.mix.bypass then (fs, u) else runFrames revFrame u fs := rfl

end Sys2Proof.Machine

namespace Sys2Proof

open Machine

/-- Settles O32: each side of a block is its lane's own run, so equal inputs and lane states on one side give equal outputs
and lane states there. -/
theorem lanesAndBypass : Obligations.LanesAndBypass := by
  unfold Obligations.LanesAndBypass
  refine ⟨fun u fs hb => if_pos hb, fun u fs hb => if_pos hb, fun u fs hb => if_pos hb,
    fun u lane fs gs hfg => ?dlyLeft, fun u lane fs gs hfg => ?dlyRight, fun u lane fs gs hfg => ?fltLeft,
    fun u lane fs gs hfg => ?fltRight, fun u lane fs gs hfg => ?revLeft, fun u lane fs gs hfg => ?revRight⟩
  case dlyLeft => exact dlyFrame_left.run_agree dlyRun_eq (dlyLane_line u ⟨u.line.l, lane⟩) rfl rfl hfg
  case dlyRight => exact dlyFrame_right.run_agree dlyRun_eq (dlyLane_line u ⟨lane, u.line.r⟩) rfl rfl hfg
  case fltLeft => exact fltFrame_left.run_agree fltRun_eq (fltLane_hist u ⟨u.hist.l, lane⟩) rfl rfl hfg
  case fltRight => exact fltFrame_right.run_agree fltRun_eq (fltLane_hist u ⟨lane, u.hist.r⟩) rfl rfl hfg
  case revLeft => exact revFrame_left.run_agree revRun_eq (revLane_line u ⟨u.line.l, lane⟩) rfl rfl hfg
  case revRight => exact revFrame_right.run_agree revRun_eq (revLane_line u ⟨lane, u.line.r⟩) rfl rfl hfg

/-- Settles O33: the model's lane steps and coefficients are the rules' expressions, operation by operation. -/
theorem laneSteps : Obligations.LaneSteps := by
  unfold Obligations.LaneSteps
  refine ⟨⟨fun u b x => ?delay, fun u h x => ?filter, fun u ln x => ?reverb⟩,
    fun cutoff q sr => ⟨?lowpass, ?highpass, ?bandpass⟩⟩
  case delay => rw [dlyLane, mixWd]
  case filter => rw [fltLane, mixWd, biquad]
  case reverb => rw [revLane, revEarly, revTail]; rfl
  case lowpass | highpass | bandpass => rw [coeffs, biquadForm, normalise, filterW0]; rfl

end Sys2Proof
end

section
/-! The geometry of delays and reverbs: line lengths and distances (43_effects.md R402, R413). -/

namespace Sys2Proof.Machine

open B32

/-- A value of at most `k` rounds to at most `k` (R10). -/
theorem roundHalfAway_le {x : Word} {k : Nat} (h : val x ≤ k * 2 ^ 149) : roundHalfAway x ≤ k := by
  have := (roundHalfAway_near x).1
  omega

theorem clampNat_of_le {v lo hi : Nat} (h : v ≤ lo) (hi_ge : lo ≤ hi) : clampNat v lo hi = lo := by
  unfold clampNat; split
  · rfl
  · split <;> omega

theorem clampNat_of_mem {v lo hi : Nat} (h1 : lo ≤ v) (h2 : v ≤ hi) : clampNat v lo hi = v := by
  rw [clampNat, if_neg h1.not_gt, if_neg h2.not_gt]

/-- A time of at most one second is at most one second's samples (R402). -/
theorem dlyTime_le {t sr : Word} (ht : InRange 0 t 0x3F800000#32) (hsr : RateOk sr) :
    roundHalfAway (mul t (B32.ofNat sr.toNat)) ≤ sr.toNat := by
  obtain ⟨ft, h0, h1⟩ := (inRange_iff (by decide) (by decide)).1 ht
  obtain ⟨fs, hs⟩ := hsr.exact
  have e0 : val (0 : Word) = 0 := by decide
  have e1 : val (0x3F800000#32) = 2 ^ 149 := by decide
  rw [e0] at h0
  rw [e1] at h1
  have hpos : (0 : Int) ≤ val (B32.ofNat sr.toNat) := by omega
  obtain ⟨-, -, hle⟩ : Between 0 (mul t (B32.ofNat sr.toNat)) (B32.ofNat sr.toNat) := by
    refine mul_between ft fs (by decide) fs ?_ (Int.mul_le_mul_of_nonneg_right h1 hpos)
    rw [e0, Int.mul_zero]
    exact Int.mul_nonneg h0 hpos
  exact roundHalfAway_le (hle.trans_eq hs)

/-- A time that rounds to at most one sample is one sample of distance (R402). -/
theorem dlyDist_of_le_one {t sr : Word} {len : Nat} (hlen : 1 ≤ len)
    (h : roundHalfAway (mul t (B32.ofNat sr.toNat)) ≤ 1) : dlyDist t sr len = 1 :=
  clampNat_of_le (by omega) hlen

/-- A time that rounds to a slot of the line is that distance (R402). -/
theorem dlyDist_of_mem {t sr : Word} {len : Nat} (h1 : 1 ≤ roundHalfAway (mul t (B32.ofNat sr.toNat)))
    (h2 : roundHalfAway (mul t (B32.ofNat sr.toNat)) ≤ len) :
    (dlyDist t sr len : Int) = roundHalfAway (mul t (B32.ofNat sr.toNat)) := by
  rw [dlyDist, clampNat_of_mem (by omega) (by omega)]
  omega

theorem revScale_one : revScale 0x3F800000#32 = 0x40400000#32 := by decide +kernel

/-- At room 1 a line is read at its length: the scale is the 3.0 of the length (R413). -/
theorem revDist_one {base sr : Word} (h : 1 ≤ revLen base sr) :
    revDist base 0x3F800000#32 sr (revLen base sr) = revLen base sr := by
  rw [revDist, revScale_one]
  exact clampNat_of_mem h le_rfl

theorem revDists_one {sr : Word} (h : RateOk sr) : revDists 0x3F800000#32 sr (revLens sr) = revLens sr := by
  obtain ⟨h1, h2, h3, ht⟩ := one_le_revLens h
  simp only [revLens] at h1 h2 h3 ht
  simp only [revDists, revLens, revDist_one h1, revDist_one h2, revDist_one h3, revDist_one ht]

end Sys2Proof.Machine

namespace Sys2Proof

open Machine

/-- Settles O43: a rounded product of at most one second is at most L samples, and the reverb's scale at room 1 is that of
its lengths. -/
theorem effectGeometry : Obligations.EffectGeometry := by
  unfold Obligations.EffectGeometry
  intro sr hsr
  have hlen := dlyLen_eq hsr
  have hpos : 1 ≤ dlyLen sr := by have := hsr.bounds; omega
  have hlines := one_le_revLens hsr
  have ⟨h1, h2, h3, ht⟩ := hlines
  refine ⟨hlen, fun t hrange => ?delay, rfl, hlines, fun room len => ?dists, revDists_one hsr, fun r hr => ?reverb⟩
  case delay =>
    obtain ⟨hlo, hhi⟩ := dlyDist_bounds (time := t) (sr := sr) hpos
    refine ⟨hlo, hhi, dlyDist_of_le_one hpos, fun h => dlyDist_of_mem h ?_⟩
    rw [hlen]
    exact dlyTime_le hrange hsr
  case dists => simp only [revDists, revDist, revScale, clampNat]; rfl
  case reverb =>
    simp only [revDists]
    exact ⟨revDist_bounds h1, revDist_bounds h2, revDist_bounds h3, revDist_bounds ht⟩

end Sys2Proof
end

section
/-! The commands of delays, filters and reverbs: creates and setters (43_effects.md R404-R406, R409-R412, R415-R417). -/

namespace Sys2Proof.Machine

open Claim

/-! ## The commands by their shape -/

theorem exec_dlyCreate (s : State) :
    exec .dlyCreate s = created s .dly s.dly fun k => s.setDly k (newDly s.eng.sr) := rfl

theorem exec_fltCreate (s : State) :
    exec .fltCreate s = created s .flt s.flt fun k => s.setFlt k (newFlt s.eng.sr) := rfl

theorem exec_revCreate (s : State) :
    exec .revCreate s = created s .rev s.rev fun k => s.setRev k (newRev s.eng.sr) := rfl

theorem exec_dlySetTime (s : State) :
    exec .dlySetTime s = onUnit s .dly s.dly (argF s.args.a1) fun ku t => pure (s.setDly ku.1 { ku.2 with
      time := B32.clamp t B32.zero Config.dlyMaxS
      d := dlyDist (B32.clamp t B32.zero Config.dlyMaxS) ku.2.sr ku.2.len }, resZero) := rfl

theorem exec_dlySetFeedback (s : State) :
    exec .dlySetFeedback s = onUnit s .dly s.dly (argF s.args.a1) fun ku g =>
      pure (s.setDly ku.1 { ku.2 with feedback := B32.clamp g B32.zero Config.feedbackMax }, resZero) := rfl

theorem exec_revSetRoom (s : State) :
    exec .revSetRoom s = onUnit s .rev s.rev (argF s.args.a1) fun ku r => pure (s.setRev ku.1 { ku.2 with
      room := B32.clamp r B32.zero B32.one
      d := revDists (B32.clamp r B32.zero B32.one) ku.2.sr ku.2.len }, resZero) := rfl

theorem exec_revSetDecay (s : State) :
    exec .revSetDecay s = onUnit s .rev s.rev (argF s.args.a1) fun ku g =>
      pure (s.setRev ku.1 { ku.2 with decay := B32.clamp g B32.zero Config.feedbackMax }, resZero) := rfl

/-- A FLT with new parameters and their coefficients, its history kept (R410-R412). -/
def Flt.retuned (u : Flt) (mode : FilterMode) (cutoff q : Word) : Flt :=
  { u with mode := mode, cutoff := cutoff, q := q, co := coeffs mode cutoff q u.sr }

theorem exec_fltSetMode (s : State) :
    exec .fltSetMode s = onUnit s .flt s.flt (argMode s.args.a1) fun ku m =>
      pure (s.setFlt ku.1 (ku.2.retuned m ku.2.cutoff ku.2.q), resZero) := rfl

theorem exec_fltSetCutoff (s : State) :
    exec .fltSetCutoff s = onUnit s .flt s.flt (argF s.args.a1) fun ku f =>
      pure (s.setFlt ku.1 (ku.2.retuned ku.2.mode (B32.clamp f Config.fMin Config.fMax) ku.2.q), resZero) := rfl

theorem exec_fltSetQ (s : State) :
    exec .fltSetQ s = onUnit s .flt s.flt (argF s.args.a1) fun ku q =>
      pure (s.setFlt ku.1 (ku.2.retuned ku.2.mode ku.2.cutoff (B32.clamp q Config.qMin Config.qMax)), resZero) := rfl

/-! ## Filter mode codes (92_eei_decisions.md D9) -/

theorem argMode_ok {c : Word} {m : FilterMode} (h : c.toNat = modeNumber m) : argMode c = .ok m := by
  cases m <;> simp only [argMode, h, modeNumber]

theorem argMode_bad {c : Word} (h : 2 < c.toNat) : argMode c = .error .badArg := argMode_error.2 ⟨h, rfl⟩

/-! ## Errors -/

/-- The errors of a command on one unit whose operand is a number. -/
theorem numberSetter_errors {α : Type} {i : Instr} {kind : Kind} {pool : State → List (Option α)}
    {body : State → Nat × α → Word → Except ErrCode (State × Res)}
    (hi : ∀ s, exec i s = onUnit s kind (pool s) (argF s.args.a1) (body s))
    (hget : ∀ {s h k}, HandleNames s h kind k → ∃ u, poolGet (pool s) k = some u) :
    NeedsHandle i [kind] ∧ RefusesArg i [kind] (fun s => B32.isNaN s.args.a1 = true) :=
  ⟨needsHandle_of_onUnit hi, refusesArg_of_onUnit hi hget fun _ => argF_bad⟩

end Sys2Proof.Machine

namespace Sys2Proof

open Machine Claim

/-- Settles O42: the creates have the shape of every create, and their records are the creation values. -/
theorem createEffects : Obligations.CreateEffects := by
  unfold Obligations.CreateEffects
  refine ⟨createFails_of_created exec_dlyCreate, createFails_of_created exec_fltCreate,
    createFails_of_created exec_revCreate, fun s k he => ⟨fun hk => ?_, fun hk => ?_, fun hk => ?_⟩⟩
  · exact (exec_dlyCreate s).trans (created_of_lowestFree he hk ..)
  · exact (exec_fltCreate s).trans (created_of_lowestFree he hk ..)
  · exact (exec_revCreate s).trans (created_of_lowestFree he hk ..)

/-- Settles O48: the setters have one shape, a unit and one number, which is clamped. -/
theorem delayAndReverbSetters : Obligations.DelayAndReverbSetters := by
  unfold Obligations.DelayAndReverbSetters
  refine ⟨⟨decode_encode .dlySetTime, decode_encode .dlySetFeedback, decode_encode .revSetRoom,
      decode_encode .revSetDecay⟩, ?dlyErrors, ?revErrors,
    fun s k hx => ⟨fun u hn hu => ⟨?time, ?feedback⟩, fun u hn hu => ⟨?room, ?decay⟩⟩⟩
  case dlyErrors =>
    simp only [List.forall_mem_cons]
    exact ⟨numberSetter_errors exec_dlySetTime HandleNames.dly_get,
      numberSetter_errors exec_dlySetFeedback HandleNames.dly_get, List.forall_mem_nil _⟩
  case revErrors =>
    simp only [List.forall_mem_cons]
    exact ⟨numberSetter_errors exec_revSetRoom HandleNames.rev_get,
      numberSetter_errors exec_revSetDecay HandleNames.rev_get, List.forall_mem_nil _⟩
  case time => exact (exec_dlySetTime s).trans (onUnit_of_ok hn hu (argF_number hx))
  case feedback => exact (exec_dlySetFeedback s).trans (onUnit_of_ok hn hu (argF_number hx))
  case room => exact (exec_revSetRoom s).trans (onUnit_of_ok hn hu (argF_number hx))
  case decay => exact (exec_revSetDecay s).trans (onUnit_of_ok hn hu (argF_number hx))

/-- Settles O49: the setters have one shape, and each stores the filter retuned. -/
theorem filterSetters : Obligations.FilterSetters := by
  unfold Obligations.FilterSetters
  obtain ⟨cutoffHandle, cutoffArg⟩ := numberSetter_errors exec_fltSetCutoff HandleNames.flt_get
  obtain ⟨qHandle, qArg⟩ := numberSetter_errors exec_fltSetQ HandleNames.flt_get
  refine ⟨⟨decode_encode .fltSetMode, decode_encode .fltSetCutoff, decode_encode .fltSetQ⟩,
    needsHandle_of_onUnit exec_fltSetMode, cutoffHandle, qHandle,
    refusesArg_of_onUnit exec_fltSetMode HandleNames.flt_get fun _ => argMode_bad, cutoffArg, qArg,
    fun s k u hn hu => ⟨fun mode hm => ?mode, fun hx => ⟨?cutoff, ?q⟩⟩⟩
  case mode => exact (exec_fltSetMode s).trans (onUnit_of_ok hn hu (argMode_ok hm))
  case cutoff => exact (exec_fltSetCutoff s).trans (onUnit_of_ok hn hu (argF_number hx))
  case q => exact (exec_fltSetQ s).trans (onUnit_of_ok hn hu (argF_number hx))

end Sys2Proof
end

section
/-! The commands on an effect of any kind: dry, wet, bypass and FX_PROCESS (43_effects.md R418-R421). -/

namespace Sys2Proof.Machine

open Claim

/-! ## Commands on one effect -/

/-- A command on the effect ARG0 names, whatever its kind, with one operand checked before its body runs (R632). -/
def onFx {β : Type} (s : State) (check : Except ErrCode β) (body : FxRef → β → State) : Result :=
  finish s 0 do
    let r ← fxOf s s.args.a0
    let x ← check
    pure (body r x, resZero)

theorem onFx_of_ok {β : Type} {s : State} {check : Except ErrCode β} {body : FxRef → β → State} {r : FxRef} {x : β}
    (hr : fxOf s s.args.a0 = .ok r) (hc : check = .ok x) : onFx s check body = .next (done (body r x) noResult) := by
  rw [onFx, hr, hc]
  rfl

section Names

variable {s : State} {h : Word} {k : Nat}

theorem fxOf_dly (hn : HandleNames s h .dly k) : fxOf s h = .ok (.dly k) := fxOf_ok.2 hn

theorem fxOf_flt (hn : HandleNames s h .flt k) : fxOf s h = .ok (.flt k) := fxOf_ok.2 hn

theorem fxOf_rev (hn : HandleNames s h .rev k) : fxOf s h = .ok (.rev k) := fxOf_ok.2 hn

theorem fxOf_names {kind : Kind} (hk : kind ∈ fxKinds) (hn : HandleNames s h kind k) : ∃ r, fxOf s h = .ok r := by
  simp only [fxKinds, List.mem_cons, List.not_mem_nil, or_false] at hk
  obtain rfl | rfl | rfl := hk
  · exact ⟨_, fxOf_dly hn⟩
  · exact ⟨_, fxOf_flt hn⟩
  · exact ⟨_, fxOf_rev hn⟩

end Names

section OnFx

variable {β : Type} {i : Instr} {check : State → Except ErrCode β} {body : State → FxRef → β → State}
  (hi : ∀ s, exec i s = onFx s (check s) (body s))
include hi

theorem needsHandle_of_onFx : NeedsHandle i [.dly, .flt, .rev] := by
  intro s hbad
  rw [hi, onFx, fxOf_bad hbad]
  rfl

theorem refusesArg_of_onFx {refused : State → Prop} (hc : ∀ s, refused s → check s = .error .badArg) :
    RefusesArg i [.dly, .flt, .rev] refused := by
  intro s kind k hk hn href
  obtain ⟨r, hr⟩ := fxOf_names hk hn
  rw [hi, onFx, hr, hc s href]
  rfl

end OnFx

/-! ## Dry, wet and bypass -/

theorem exec_fxSetDry (s : State) :
    exec .fxSetDry s = onFx s (argF s.args.a1) fun r v =>
      setFxMix s r fun m => { m with dry := B32.clamp v B32.zero B32.one } := rfl

theorem exec_fxSetWet (s : State) :
    exec .fxSetWet s = onFx s (argF s.args.a1) fun r v =>
      setFxMix s r fun m => { m with wet := B32.clamp v B32.zero B32.one } := rfl

theorem exec_fxSetBypass (s : State) :
    exec .fxSetBypass s = onFx s (argFlag s.args.a1) fun r b => setFxMix s r fun m => { m with bypass := b } := rfl

theorem argFlag_bad {w : Word} (h : 1 < w.toNat) : argFlag w = .error .badArg := argFlag_error.2 ⟨h, rfl⟩

theorem argFlag_zero {w : Word} (h : w.toNat = 0) : argFlag w = .ok false := argFlag_ok.2 (by simp [h])

theorem argFlag_one {w : Word} (h : w.toNat = 1) : argFlag w = .ok true := argFlag_ok.2 (by simp [h])

theorem setFxMix_dly {s : State} {k : Nat} {u : Dly} (hu : s.dly[k]? = some (some u)) (f : FxMix → FxMix) :
    setFxMix s (.dly k) f = s.setDly k { u with mix := f u.mix } := by
  simp only [setFxMix, poolGet_some.2 hu]

theorem setFxMix_flt {s : State} {k : Nat} {u : Flt} (hu : s.flt[k]? = some (some u)) (f : FxMix → FxMix) :
    setFxMix s (.flt k) f = s.setFlt k { u with mix := f u.mix } := by
  simp only [setFxMix, poolGet_some.2 hu]

theorem setFxMix_rev {s : State} {k : Nat} {u : Rev} (hu : s.rev[k]? = some (some u)) (f : FxMix → FxMix) :
    setFxMix s (.rev k) f = s.setRev k { u with mix := f u.mix } := by
  simp only [setFxMix, poolGet_some.2 hu]

/-- A setter of a common field stores it in the unit the handle names, whatever its kind. -/
theorem mixSetter_of_ok {β : Type} {i : Instr} {s : State} {check : Except ErrCode β} {f : β → FxMix → FxMix} {x : β}
    (hi : exec i s = onFx s check fun r x => setFxMix s r (f x)) (hc : check = .ok x) (k : Nat) :
    (∀ u : Dly, HandleNames s s.args.a0 .dly k → s.dly[k]? = some (some u) →
      exec i s = .next (done (s.setDly k { u with mix := f x u.mix }) noResult)) ∧
    (∀ u : Flt, HandleNames s s.args.a0 .flt k → s.flt[k]? = some (some u) →
      exec i s = .next (done (s.setFlt k { u with mix := f x u.mix }) noResult)) ∧
    (∀ u : Rev, HandleNames s s.args.a0 .rev k → s.rev[k]? = some (some u) →
      exec i s = .next (done (s.setRev k { u with mix := f x u.mix }) noResult)) := by
  refine ⟨fun u hn hu => ?_, fun u hn hu => ?_, fun u hn hu => ?_⟩
  · rw [hi, onFx_of_ok (fxOf_dly hn) hc, setFxMix_dly hu]
  · rw [hi, onFx_of_ok (fxOf_flt hn) hc, setFxMix_flt hu]
  · rw [hi, onFx_of_ok (fxOf_rev hn) hc, setFxMix_rev hu]

/-! ## FX_PROCESS -/

/-- The state after n frames of SWIN have gone through an effect and back (R421). -/
def fxProcessed (s : State) (r : FxRef) (n : Nat) : State :=
  (fxRun s r (s.swin.frames n)).2.setSwin
    ((fxRun s r (s.swin.frames n)).2.swin.setWords 0 (interleave (fxRun s r (s.swin.frames n)).1))

theorem exec_fxProcess (s : State) : exec .fxProcess s = onFx s (argCount s.args.a1) (fxProcessed s) := rfl

theorem exec_fxProcess_of_ok {s : State} {r : FxRef} {n : Nat} (hr : fxOf s s.args.a0 = .ok r)
    (hn : s.args.a1.toNat = n) (hle : n ≤ 8192) :
    exec .fxProcess s = .next (done (fxProcessed s r n) noResult) :=
  (exec_fxProcess s).trans (onFx_of_ok hr (argCount_ok.2 ⟨hn.trans_le hle, hn.symm⟩))

end Sys2Proof.Machine

namespace Sys2Proof

open Machine Claim

/-- Settles O50: the commands have one shape, an effect of any kind and one checked operand; what they do to the unit is
read off `setFxMix` and `fxRun` kind by kind. -/
theorem effectCommands : Obligations.EffectCommands := by
  unfold Obligations.EffectCommands
  refine ⟨⟨⟨decode_encode .fxSetDry, decode_encode .fxSetWet, decode_encode .fxSetBypass⟩, ?handles, ?numbers,
      refusesArg_of_onFx exec_fxSetBypass fun _ => argFlag_bad,
      fun s k => ⟨fun hx => ?dry, fun hx => ?wet, fun h0 => ?off, fun h1 => ?on⟩⟩,
    decode_encode .fxProcess, needsHandle_of_onFx exec_fxProcess,
    refusesArg_of_onFx exec_fxProcess fun _ h => argCount_error.2 ⟨h, rfl⟩,
    fun s k n hn hle => ⟨fun u hh hu => ?dly, fun u hh hu => ?flt, fun u hh hu => ?rev⟩⟩
  case handles =>
    simp only [List.forall_mem_cons]
    exact ⟨needsHandle_of_onFx exec_fxSetDry, needsHandle_of_onFx exec_fxSetWet, needsHandle_of_onFx exec_fxSetBypass,
      List.forall_mem_nil _⟩
  case numbers =>
    simp only [List.forall_mem_cons]
    exact ⟨refusesArg_of_onFx exec_fxSetDry fun _ => argF_bad, refusesArg_of_onFx exec_fxSetWet fun _ => argF_bad,
      List.forall_mem_nil _⟩
  case dry => exact mixSetter_of_ok (exec_fxSetDry s) (argF_number hx) k
  case wet => exact mixSetter_of_ok (exec_fxSetWet s) (argF_number hx) k
  case off => exact mixSetter_of_ok (exec_fxSetBypass s) (argFlag_zero h0) k
  case on => exact mixSetter_of_ok (exec_fxSetBypass s) (argFlag_one h1) k
  case dly =>
    rw [exec_fxProcess_of_ok (fxOf_dly hh) hn hle, fxProcessed, fxRun_dly (poolGet_some.2 hu)]
    rfl
  case flt =>
    rw [exec_fxProcess_of_ok (fxOf_flt hh) hn hle, fxProcessed, fxRun_flt (poolGet_some.2 hu)]
    rfl
  case rev =>
    rw [exec_fxProcess_of_ok (fxOf_rev hh) hn hle, fxProcessed, fxRun_rev (poolGet_some.2 hu)]
    rfl

end Sys2Proof
end

section
/-! Rounding is monotone: the binary32 operations keep the order of exact results (00_scope.md R9). -/

namespace Sys2Proof.B32

/-! ## Rounding a ratio of naturals -/

theorem drop_mono {p q : Nat} (h : p ≤ q) (hq : q < 2 ^ 1024) : drop p ≤ drop q := by
  rcases p.eq_zero_or_pos with rfl | h0
  · simp
  · have hp := (ilog_spec h0 (h.trans_lt hq)).1
    have hq' := (ilog_spec (h0.trans_le h) hq).2
    have := (Nat.pow_lt_pow_iff_right (by decide : 1 < 2)).1 ((hp.trans h).trans_lt hq')
    unfold drop
    omega

theorem roundNat_mono {m n d : Nat} (hd : 0 < d) (h : m ≤ n) : roundNat m d ≤ roundNat n d := by
  rcases h.eq_or_lt with rfl | hlt
  · exact le_rfl
  · have hm := (roundNat_near m hd).1
    have hn := (roundNat_near n hd).2.1
    by_contra hc
    have := Nat.mul_le_mul_left (2 * d) (show roundNat n d + 1 ≤ roundNat m d by omega)
    rw [Nat.mul_add] at this
    omega

/-- A larger numerator over the same denominator never encodes to a smaller magnitude. -/
theorem encMag_mono {m n d : Nat} (hd : 0 < d) (hn : n < 2 ^ 1024) (h : m ≤ n) : encMag m d ≤ encMag n d := by
  have hq : n / d < 2 ^ 1024 := (Nat.div_le_self n d).trans_lt hn
  have hmq : m / d ≤ n / d := Nat.div_le_div_right h
  rw [encMag_eq, encMag_eq]
  refine min_le_min_right _ ?_
  rcases (drop_mono hmq hq).eq_or_lt with hk | hk
  · rw [significand, significand, hk]
    exact Nat.add_le_add_left (roundNat_mono (Nat.mul_pos hd (Nat.two_pow_pos _)) h) _
  · have hm := significand_le hd (hmq.trans_lt hq)
    have hn := le_significand hd hq (by omega)
    omega

/-! ## Rounding a signed ratio -/

/-- The value, in units, of the binary32 word nearest `z / d` units. -/
def rounded (z : Int) (d : Nat) : Int := signed (decide (z < 0)) (magUnits (encMag z.natAbs d))

/-- Sizes that keep the order of absolute values keep, under the signs, the order of the numbers. -/
theorem signed_mono {y z : Int} {p q : Nat} (h : y ≤ z) (hneg : z.natAbs ≤ y.natAbs → q ≤ p)
    (hpos : y.natAbs ≤ z.natAbs → p ≤ q) : signed (decide (y < 0)) p ≤ signed (decide (z < 0)) q := by
  by_cases hy : y < 0
  · by_cases hz : z < 0
    · simp only [hy, hz, decide_true, signed_true]
      omega
    · simp only [hy, hz, decide_true, decide_false, signed_true, signed_false]
      omega
  · simp only [hy, show ¬ z < 0 by omega, decide_false, signed_false]
    omega

theorem rounded_mono {y z : Int} {d : Nat} (hd : 0 < d) (hy : y.natAbs < 2 ^ 1024) (hz : z.natAbs < 2 ^ 1024)
    (h : y ≤ z) : rounded y d ≤ rounded z d :=
  signed_mono h (fun hle => magUnits_strictMono.monotone (encMag_mono hd hy hle))
    fun hle => magUnits_strictMono.monotone (encMag_mono hd hz hle)

theorem val_ofUnits_eq_rounded {s : Bool} {n d : Nat} {z : Int} (h : z = signed s n) :
    val (ofUnits s n d) = rounded z d := by
  subst h
  rw [val_ofUnits, rounded, natAbs_signed]
  rcases n.eq_zero_or_pos with rfl | hn
  · simp [encMag_zero]
  · congr 1
    cases s
    · exact (decide_eq_false (Int.natCast_nonneg n).not_gt).symm
    · simp [hn]

section Finite

variable {a b : Word} (ha : isFinite a = true) (hb : isFinite b = true)
include ha hb

theorem val_add : val (add a b) = rounded (val a + val b) 1 := by
  rw [add_of_finite ha hb]
  split
  · next h0 => rw [signedZero_eq_ofUnits, h0]; exact val_ofUnits_eq_rounded (signed_zero _).symm
  · exact val_ofUnits_eq_rounded (signed_natAbs fun _ => rfl).symm

theorem val_mul : val (mul a b) = rounded (val a * val b) (2 ^ 149) := by
  rw [mul_of_finite ha hb]
  exact val_ofUnits_eq_rounded (signed_mul ..)

theorem val_div (h : 0 < val b) : val (div a b) = rounded (val a * 2 ^ 149) (units b) := by
  have hs := signed_mul_sign (sign a) (sign b) (units a) (2 ^ 149) (units_pos h.ne')
  rw [Nat.cast_pow, Nat.cast_ofNat, ← val_eq_signed, ← val_eq_signed, Int.sign_eq_one_of_pos h, mul_one] at hs
  rw [div_of_finite ha hb h.ne']
  exact val_ofUnits_eq_rounded hs

end Finite

/-! ### The exact results of finite operands stay far below 2^1024 -/

theorem natAbs_val_lt_two_pow {x : Word} (hx : isFinite x = true) : (val x).natAbs < 2 ^ 277 := by
  rw [natAbs_val]; exact units_lt hx

section Sizes

variable {a b : Word} (ha : isFinite a = true) (hb : isFinite b = true)
include ha

theorem natAbs_val_mul_two_pow_lt : (val a * 2 ^ 149).natAbs < 2 ^ 1024 := by
  rw [Int.natAbs_mul]
  exact mul_lt_of_units_lt (natAbs_val_lt_two_pow ha) two_pow_149_lt

include hb

theorem natAbs_val_add_lt : (val a + val b).natAbs < 2 ^ 1024 :=
  (Int.natAbs_add_le _ _).trans_lt (add_lt_of_units_lt (natAbs_val_lt_two_pow ha) (natAbs_val_lt_two_pow hb))

theorem natAbs_val_mul_lt : (val a * val b).natAbs < 2 ^ 1024 := by
  rw [Int.natAbs_mul]
  exact mul_lt_of_units_lt (natAbs_val_lt_two_pow ha) (natAbs_val_lt_two_pow hb)

end Sizes

/-! ## The operations keep the order of exact results -/

section Monotone

variable {a b a' b' : Word} (ha : isFinite a = true) (hb : isFinite b = true) (ha' : isFinite a' = true)
  (hb' : isFinite b' = true)
include ha hb ha'

theorem val_div_mono (hpos : 0 < val b) (h : val a ≤ val a') : val (div a b) ≤ val (div a' b) := by
  rw [val_div ha hb hpos, val_div ha' hb hpos]
  exact rounded_mono (units_pos hpos.ne') (natAbs_val_mul_two_pow_lt ha) (natAbs_val_mul_two_pow_lt ha') (by omega)

include hb'

theorem val_add_mono (h : val a + val b ≤ val a' + val b') : val (add a b) ≤ val (add a' b') := by
  rw [val_add ha hb, val_add ha' hb']
  exact rounded_mono Nat.one_pos (natAbs_val_add_lt ha hb) (natAbs_val_add_lt ha' hb') h

theorem val_sub_mono (h : val a - val b ≤ val a' - val b') : val (sub a b) ≤ val (sub a' b') :=
  val_add_mono ha (by simpa using hb) ha' (by simpa using hb') (by rw [val_neg, val_neg]; omega)

theorem val_mul_mono (h : val a * val b ≤ val a' * val b') : val (mul a b) ≤ val (mul a' b') := by
  rw [val_mul ha hb, val_mul ha' hb']
  exact rounded_mono (by decide) (natAbs_val_mul_lt ha hb) (natAbs_val_mul_lt ha' hb') h

end Monotone

end Sys2Proof.B32
end

section
/-! The soft clip: its curve rises from the threshold to 1.0 and its rounding keeps the order, so two samples of it bound it
everywhere (44_channel_mixer.md R474, R488). -/

namespace Sys2Proof.B32

/-! ## Words by their sign -/

theorem mag_withSign (m s : Word) : mag (withSign m s) = mag m := by
  have h1 : (0x7FFFFFFF#32).setWidth 31 = BitVec.allOnes 31 := by decide
  have h2 : (0x80000000#32).setWidth 31 = 0#31 := by decide
  rw [mag_eq_setWidth, withSign, BitVec.setWidth_or, BitVec.setWidth_and, BitVec.setWidth_and, h1, h2, BitVec.and_allOnes,
    BitVec.and_zero, BitVec.or_zero, mag_eq_setWidth]

theorem sign_withSign (m s : Word) : sign (withSign m s) = sign s := by
  have h1 : (0x7FFFFFFF#32 : Word).msb = false := by decide
  have h2 : (0x80000000#32 : Word).msb = true := by decide
  rw [sign_eq_msb, sign_eq_msb, withSign, BitVec.msb_or, BitVec.msb_and, BitVec.msb_and, h1, h2, Bool.and_false,
    Bool.and_true, Bool.false_or]

theorem sign_of_val_pos {x : Word} (h : 0 < val x) : sign x = false := by
  rw [val_eq_signed] at h
  cases hs : sign x
  · rfl
  · rw [hs, signed_true] at h
    omega

/-- Words without a sign are ordered as their bits. -/
theorem val_le_iff_mag {a b : Word} (ha : sign a = false) (hb : sign b = false) : val a ≤ val b ↔ mag a ≤ mag b := by
  rw [val_eq_signed, val_eq_signed, ha, hb, signed_false, signed_false, units_eq, units_eq, Int.ofNat_le,
    magUnits_strictMono.le_iff_le]

section Magnitude

variable {x c : Word}

theorem val_abs_le_iff (hs : sign c = false) : val (abs x) ≤ val c ↔ mag x ≤ mag c := by
  rw [val_le_iff_mag (sign_abs x) hs, mag_abs]

theorem le_val_abs_iff (hs : sign c = false) : val c ≤ val (abs x) ↔ mag c ≤ mag x := by
  rw [val_le_iff_mag hs (sign_abs x), mag_abs]

variable (hx : isNaN x = false) (hc : isNaN c = false) (hs : sign c = false)
include hx hc hs

/-- Magnitudes compare as their bits, infinity among them. -/
theorem le_abs_iff : le (abs x) c = true ↔ mag x ≤ mag c := by
  rw [le_iff, isNaN, mag_abs, ← isNaN, key_le_key_iff, val_abs_le_iff hs]
  simp [hx, hc]

theorem lt_abs_iff : lt c (abs x) = true ↔ mag c < mag x := by
  rw [lt_iff, isNaN, isNaN, mag_abs, ← isNaN, ← isNaN, ← not_le, key_le_key_iff, val_abs_le_iff hs]
  simp [hx, hc]

end Magnitude

/-- The absolute value of an infinity. -/
theorem abs_of_mag_inf {x : Word} (h : mag x = 0x7F800000) : abs x = 0x7F800000#32 := by
  have hm := mag_abs x
  have hs := sign_abs x
  rw [sign, decide_eq_false_iff_not] at hs
  rw [h, mag] at hm
  apply BitVec.eq_of_toNat_eq
  rw [Nat.mod_eq_of_lt (by omega)] at hm
  exact hm

theorem minF_eq {a b : Word} (ha : isNaN a = false) (hb : isNaN b = false) :
    minF a b = if val b < val a then b else a := by
  rw [minF]
  by_cases h : val b < val a
  · rw [if_pos h, if_pos (lt_iff.2 ⟨hb, ha, (key_lt_key_iff b a).2 h⟩)]
  · rw [if_neg h, if_neg fun hlt => h ((key_lt_key_iff b a).1 (lt_iff.1 hlt).2.2)]

end Sys2Proof.B32

namespace Sys2Proof.Machine

open B32

/-! ## The stages of the curve -/

/-- Between finite words in the order of the values a word is finite. -/
theorem between_of_val {lo x hi : Word} (hl : isFinite lo = true) (hh : isFinite hi = true) (h1 : val lo ≤ val x)
    (h2 : val x ≤ val hi) : Between lo x hi :=
  ⟨isFinite_of_key hl hh ((key_le_key_iff _ _).2 h1) ((key_le_key_iff _ _).2 h2), h1, h2⟩

theorem val_zero : val B32.zero = 0 := by decide
theorem val_one : val B32.one = 2 ^ 149 := by decide

/-- The distance above the threshold. -/
theorem sub_scThresh_between {a : Word} (ha : isFinite a = true) (h : val Config.scThresh ≤ val a) :
    Between B32.zero (sub a Config.scThresh) a := by
  have ht : 0 ≤ val Config.scThresh := by decide
  exact sub_between ha (by decide) (by decide) ha (by rw [val_zero]; omega) (by omega)

/-- The place on the curve: the distance over the range, which is no NaN, or 1.0 past it (R474). -/
theorem clipX_eq {a : Word} (ha : isFinite a = true) (h : val Config.scThresh ≤ val a) :
    clipX a = if val B32.one < val (div (sub a Config.scThresh) Config.scRange) then B32.one
      else div (sub a Config.scThresh) Config.scRange := by
  refine minF_eq ?_ (by decide)
  rw [div_of_finite (sub_scThresh_between ha h).1 (by decide) (by decide), isNaN_ofUnits]

theorem val_clipX {a : Word} (ha : isFinite a = true) (h : val Config.scThresh ≤ val a) :
    val (clipX a) = min (val (div (sub a Config.scThresh) Config.scRange)) (val B32.one) := by
  rw [clipX_eq ha h]
  split <;> omega

theorem val_clipX_mono {a b : Word} (ha : isFinite a = true) (hb : isFinite b = true) (h : val Config.scThresh ≤ val a)
    (hab : val a ≤ val b) : val (clipX a) ≤ val (clipX b) := by
  rw [val_clipX ha h, val_clipX hb (h.trans hab)]
  refine min_le_min_right _ (val_div_mono (sub_scThresh_between ha h).1 (by decide)
    (sub_scThresh_between hb (h.trans hab)).1 (by decide) ?_)
  exact val_sub_mono ha (by decide) hb (by decide) (by omega)

theorem clipX_between {a : Word} (ha : isFinite a = true) (h : val Config.scThresh ≤ val a) :
    Between B32.zero (clipX a) B32.one := by
  have hlow : val B32.zero = val (clipX Config.scThresh) := by decide +kernel
  refine between_of_val (by decide) (by decide) (hlow.trans_le (val_clipX_mono (by decide) ha le_rfl h)) ?_
  rw [val_clipX ha h]
  exact min_le_right _ _

/-- The complement of a fraction is a fraction. -/
theorem one_sub_between {x : Word} (hx : Between B32.zero x B32.one) : Between B32.zero (sub B32.one x) B32.one := by
  obtain ⟨fx, h0, h1⟩ := hx
  exact sub_between (by decide) fx (by decide) (by decide) (by rw [val_zero]; omega) (by rw [val_zero] at h0; omega)

theorem mul_unit_between {x y : Word} (hx : Between B32.zero x B32.one) (hy : Between B32.zero y B32.one) :
    Between B32.zero (mul x y) B32.one := by
  obtain ⟨fx, x0, x1⟩ := hx
  obtain ⟨fy, y0, y1⟩ := hy
  rw [val_zero] at x0 y0
  exact mul_between fx fy (by decide) (by decide) (by rw [val_zero]; exact mul_nonneg x0 y0)
    (mul_le_mul (x1.trans_eq val_one) y1 y0 (by decide))

theorem clipCurve_between {x : Word} (hx : Between B32.zero x B32.one) : Between B32.zero (clipCurve x) B32.one :=
  one_sub_between (mul_unit_between (one_sub_between hx) (one_sub_between hx))

theorem val_clipCurve_mono {x y : Word} (hx : Between B32.zero x B32.one) (hy : Between B32.zero y B32.one)
    (h : val x ≤ val y) : val (clipCurve x) ≤ val (clipCurve y) := by
  have hu := one_sub_between hx
  have hv := one_sub_between hy
  have hvu : val (sub B32.one y) ≤ val (sub B32.one x) :=
    val_sub_mono (by decide) hy.1 (by decide) hx.1 (by omega)
  have hv0 : 0 ≤ val (sub B32.one y) := val_zero ▸ hv.2.1
  have hsq := val_mul_mono hv.1 hv.1 hu.1 hu.1 (mul_self_le_mul_self hv0 hvu)
  exact val_sub_mono (by decide) (mul_unit_between hu hu).1 (by decide) (mul_unit_between hv hv).1 (by omega)

/-- The clipped magnitude at height `c` of the curve. -/
def clipAt (c : Word) : Word := add Config.scThresh (mul c Config.scRange)

theorem clipMag_eq_clipAt (a : Word) : clipMag a = clipAt (clipCurve (clipX a)) := rfl

theorem mul_scRange_between {c : Word} (hc : Between B32.zero c B32.one) :
    Between B32.zero (mul c Config.scRange) B32.one := mul_unit_between hc ⟨by decide, by decide, by decide⟩

theorem val_clipAt_mono {c d : Word} (hc : Between B32.zero c B32.one) (hd : Between B32.zero d B32.one)
    (h : val c ≤ val d) : val (clipAt c) ≤ val (clipAt d) := by
  have hr : 0 ≤ val Config.scRange := by decide
  refine val_add_mono (by decide) (mul_scRange_between hc).1 (by decide) (mul_scRange_between hd).1 ?_
  have hf : isFinite Config.scRange = true := by decide
  have := val_mul_mono hc.1 hf hd.1 hf (mul_le_mul_of_nonneg_right h hr)
  omega

theorem clipAt_between {c : Word} (hc : Between B32.zero c B32.one) :
    Between Config.scThresh (clipAt c) B32.one := by
  have hlow : val (clipAt B32.zero) = val Config.scThresh := by decide +kernel
  have hhigh : val (clipAt B32.one) = val B32.one := by decide +kernel
  exact between_of_val (by decide) (by decide)
    (hlow.ge.trans (val_clipAt_mono ⟨by decide, by decide, by decide⟩ hc hc.2.1))
    ((val_clipAt_mono hc ⟨by decide, by decide, by decide⟩ hc.2.2).trans hhigh.le)

/-! ## The clipped magnitude -/

theorem clipMag_between {a : Word} (ha : isFinite a = true) (h : val Config.scThresh ≤ val a) :
    Between Config.scThresh (clipMag a) B32.one :=
  clipMag_eq_clipAt a ▸ clipAt_between (clipCurve_between (clipX_between ha h))

/-- The clipped magnitude keeps the order of the magnitudes above the threshold. -/
theorem val_clipMag_mono {a b : Word} (ha : isFinite a = true) (hb : isFinite b = true)
    (h : val Config.scThresh ≤ val a) (hab : val a ≤ val b) : val (clipMag a) ≤ val (clipMag b) := by
  have hxa := clipX_between ha h
  have hxb := clipX_between hb (h.trans hab)
  rw [clipMag_eq_clipAt, clipMag_eq_clipAt]
  exact val_clipAt_mono (clipCurve_between hxa) (clipCurve_between hxb)
    (val_clipCurve_mono hxa hxb (val_clipX_mono ha hb h hab))

/-- The last magnitude that clips below 1.0, and the first that clips to it. -/
theorem clipMag_last : clipMag 0x3F7FFDF5#32 = 0x3F7FFFFF#32 := by decide +kernel
theorem clipMag_first : clipMag 0x3F7FFDF6#32 = B32.one := by decide +kernel
theorem clipMag_inf : clipMag 0x7F800000#32 = B32.one := by decide +kernel

/-- Above the threshold the clip is at most 1.0, and it is 1.0 exactly from 0x3F7FFDF6 on (R488). -/
theorem mag_clipMag {x : Word} (hx : isNaN x = false) (h : 0x3F733333 < mag x) :
    mag (clipMag (B32.abs x)) ≤ 0x3F800000 ∧
      (mag x ≤ 0x3F7FFDF5 → mag (clipMag (B32.abs x)) ≤ 0x3F7FFFFF) ∧
      (0x3F7FFDF6 ≤ mag x → 0x3F800000 ≤ mag (clipMag (B32.abs x))) := by
  by_cases hf : isFinite x = true
  · have ha : isFinite (B32.abs x) = true := by rwa [isFinite_abs]
    have hthr : val Config.scThresh ≤ val (B32.abs x) := (le_val_abs_iff (by decide)).2 h.le
    obtain ⟨-, hlow, hhigh⟩ := clipMag_between ha hthr
    have hsign : sign (clipMag (B32.abs x)) = false := sign_of_val_pos (lt_of_lt_of_le (by decide) hlow)
    refine ⟨(val_le_iff_mag hsign (by decide)).1 hhigh, fun hlast => ?_, fun hfirst => ?_⟩
    · have := val_clipMag_mono ha (by decide) hthr ((val_abs_le_iff (c := 0x3F7FFDF5#32) (by decide)).2 hlast)
      rw [clipMag_last] at this
      exact (val_le_iff_mag hsign (by decide)).1 this
    · have := val_clipMag_mono (by decide) ha (by decide) ((le_val_abs_iff (c := 0x3F7FFDF6#32) (by decide)).2 hfirst)
      rw [clipMag_first] at this
      exact (val_le_iff_mag (by decide) hsign).1 this
  · have hm : mag x = 0x7F800000 := by
      rw [isFinite_iff] at hf
      rw [isNaN, decide_eq_false_iff_not] at hx
      omega
    rw [abs_of_mag_inf hm, clipMag_inf, hm]
    exact ⟨by decide, by decide, by decide⟩

/-! ## The clip -/

theorem softClip_of_le {x : Word} (hx : isNaN x = false) (h : mag x ≤ 0x3F733333) : softClip x = x :=
  if_neg fun hlt => h.not_gt ((lt_abs_iff (c := Config.scThresh) hx (by decide) (by decide)).1 hlt)

theorem softClip_of_gt {x : Word} (hx : isNaN x = false) (h : 0x3F733333 < mag x) :
    softClip x = withSign (clipMag (B32.abs x)) x :=
  if_pos ((lt_abs_iff (c := Config.scThresh) hx (by decide) (by decide)).2 h)

theorem softClip_of_isNaN {x : Word} (hx : isNaN x = true) : softClip x = x := by
  have habs : isNaN (B32.abs x) = true := by rwa [isNaN, mag_abs, ← isNaN]
  rw [softClip, lt_of_isNaN (.inr habs), if_neg Bool.false_ne_true]

/-- A word whose magnitude is at most 1.0 is no NaN and lies within 1.0. -/
theorem le_one_of_mag {x : Word} (h : mag x ≤ 0x3F800000) : le (B32.abs x) 0x3F800000#32 = true := by
  have hx : isNaN x = false := by rw [isNaN, decide_eq_false_iff_not]; omega
  exact (le_abs_iff hx (by decide) (by decide)).2 h

end Sys2Proof.Machine

namespace Sys2Proof

open Machine B32

/-- Settles O38: the clip keeps the order of the magnitudes, so its values at 0x3F7FFDF5 and 0x3F7FFDF6 bound it on either
side, and it never passes 1.0, the curve's end. -/
theorem softClipBound : Obligations.SoftClipBound := by
  unfold Obligations.SoftClipBound
  refine ⟨fun x hx => ?_, by decide +kernel, fun x => softClip_of_isNaN⟩
  rcases Nat.lt_or_ge 0x3F733333 (mag x) with h | h
  · obtain ⟨hbound, hlast, hfirst⟩ := mag_clipMag hx h
    rw [softClip_of_gt hx h, mag_withSign]
    exact ⟨le_one_of_mag (by rwa [mag_withSign]), by omega, hlast, sign_withSign _ _,
      fun hsmall => absurd h hsmall.not_gt⟩
  · rw [softClip_of_le hx h]
    exact ⟨le_one_of_mag (by omega), by omega, by omega, rfl, fun _ => rfl⟩

end Sys2Proof
end

section
/-! Ramps, channels and the mixer (44_channel_mixer.md R471-R475). -/

namespace Sys2Proof.Machine

open B32

/-! ## Ramps (R471, R472) -/

theorem rampAdv_of_done {r : Ramp} (h : r.rem = 0) (n : Nat) : rampAdv r n = r := if_pos (.inl h)

theorem rampAdv_zero (r : Ramp) : rampAdv r 0 = r := if_pos (.inr rfl)

theorem rampAdv_of_le {r : Ramp} {n : Nat} (h0 : 0 < r.rem) (h : r.rem ≤ n) :
    rampAdv r n = { r with cur := r.tgt, rem := 0 } := by
  rw [rampAdv, if_neg (by omega), if_pos h]

theorem rampAdv_of_lt {r : Ramp} {n : Nat} (h0 : 0 < n) (h : n < r.rem) :
    rampAdv r n = { r with cur := add r.cur (mul r.inc (B32.ofNat n)), rem := r.rem - n } := by
  rw [rampAdv, if_neg (by omega), if_neg (by omega)]

/-- One block of a ramp in progress uses min(n, rem) samples of it (R471). -/
theorem rampAdv_block {r : Ramp} {n : Nat} (hn : 0 < n) (h0 : 0 < r.rem) :
    rampAdv r n = { r with
      rem := r.rem - min n r.rem
      cur := if r.rem - min n r.rem = 0 then r.tgt else add r.cur (mul r.inc (B32.ofNat (min n r.rem))) } := by
  rcases Nat.lt_or_ge n r.rem with h | h
  · rw [rampAdv_of_lt hn h, Nat.min_eq_left h.le, if_neg (by omega)]
  · rw [rampAdv_of_le h0 h, Nat.min_eq_right h, Nat.sub_self, if_pos rfl]

theorem foldl_rampAdv_of_done {r : Ramp} (h : r.rem = 0) (ns : List Nat) : ns.foldl rampAdv r = r := by
  induction ns with
  | nil => rfl
  | cons n ns ih => rw [List.foldl_cons, rampAdv_of_done h, ih]

/-- Blocks that together ask for at least what remains land on the target. -/
theorem foldl_rampAdv_lands {r : Ramp} {ns : List Nat} (h0 : 0 < r.rem) (h : r.rem ≤ ns.sum) :
    (ns.foldl rampAdv r).rem = 0 ∧ (ns.foldl rampAdv r).cur = r.tgt := by
  induction ns generalizing r with
  | nil => rw [List.sum_nil] at h; omega
  | cons n ns ih =>
    rw [List.sum_cons] at h
    rw [List.foldl_cons]
    rcases Nat.lt_or_ge n r.rem with hlt | hge
    · rcases n.eq_zero_or_pos with rfl | hn
      · rw [rampAdv_zero]
        exact ih h0 (by omega)
      · rw [rampAdv_of_lt hn hlt]
        exact ih (Nat.sub_pos_of_lt hlt) (Nat.sub_le_iff_le_add'.2 h)
    · rw [rampAdv_of_le h0 hge, foldl_rampAdv_of_done rfl]
      exact ⟨rfl, rfl⟩

/-! ## Channels and the mixer (R473, R475) -/

/-- A muted channel, or one with no source, is silent and changes nothing (R473). -/
theorem chGen_of_silent (s : State) {c : Channel} (n : Nat) (h : c.src = none ∨ c.mute = true) :
    chGen s c n = (silence n, c, s) := by
  rw [chGen]
  rcases h with h | h
  · rw [h]
  · cases c.src with
    | none => rfl
    | some r => exact if_pos h

theorem chGen_of_source (s : State) {c : Channel} {r : SrcRef} (n : Nat) (hr : c.src = some r) (hm : c.mute = false) :
    chGen s c n = (spread (channelAdv c n) (srcGen s r n).1, channelAdv c n, (srcGen s r n).2) := by
  simp only [chGen, hr, hm, Bool.false_eq_true, if_false]

/-- Of the words in [0, 1] only -0.0 has a sign. -/
theorem sign_of_inRange_zero_one {v : Word} (hv : InRange 0 v 0x3F800000#32) (hneg : v ≠ 0x80000000#32) :
    sign v = false := by
  by_contra hs
  rw [Bool.not_eq_false] at hs
  obtain ⟨-, hlow, -⟩ := (inRange_iff (by decide) (by decide)).1 hv
  have hz : val (0 : Word) = 0 := by decide
  rw [hz, val_eq_signed, hs, signed_true] at hlow
  have hm : mag v = 0 := units_eq_zero.1 (by omega)
  rw [sign, decide_eq_true_eq] at hs
  rw [mag] at hm
  exact hneg (BitVec.eq_of_toNat_eq (show v.toNat = 2 ^ 31 by have := v.isLt; omega))

/-- +0.0 stays +0.0 through a master volume of [0, 1] other than -0.0, and through the clip. -/
theorem softClip_zero_mul {v : Word} (hv : InRange 0 v 0x3F800000#32) (hneg : v ≠ 0x80000000#32) :
    softClip (mul 0 v) = 0 := by
  have hf := ((inRange_iff (by decide) (by decide)).1 hv).1
  have hu : units 0 = 0 := by decide
  have hs : sign 0 = false := by decide
  have hmul : mul 0 v = 0 := by
    rw [mul_of_finite (by decide) hf, sign_of_inRange_zero_one hv hneg, hs, hu, Nat.zero_mul, ofUnits, encMag_zero]
    rfl
  rw [hmul]
  exact softClip_of_le (by decide) (by decide)

theorem setMixer_self {s : State} {m : Mixer} (h : s.mixer = some m) : s.setMixer m = s := by
  rw [State.setMixer, ← h]

theorem mixGen_of_no_channel {s : State} {m : Mixer} (hm : s.mixer = some m) (h : m.ch = []) (n : Nat) :
    mixGen s m n = (masterClip m.master (silence n), s) := by
  have hself : ({ m with ch := [] } : Mixer) = m := by rw [← h]
  rw [mixGen, h, mixChannels]
  dsimp only
  rw [hself, setMixer_self hm]

end Sys2Proof.Machine

namespace Sys2Proof

open Machine

/-- Settles O35: one block uses min(n, rem) samples; what remains falls by them until the block that
lands; the set is `rampSet` as the model writes it. -/
theorem rampRules : Obligations.RampRules := by
  unfold Obligations.RampRules
  refine ⟨fun r n hn => ⟨fun h => rampAdv_of_done h n, fun h => ?_⟩, fun r ns => foldl_rampAdv_lands,
    fun r v ms sr given => rfl⟩
  rw [rampAdv_block hn h]
  exact ⟨rfl, rfl, rfl, rfl⟩

/-- Settles O36: a channel is silent or pulls its source; the mixer's clauses are the equations of `mixChannels` and
`mixGen`. -/
theorem mixRules : Obligations.MixRules := by
  unfold Obligations.MixRules
  exact ⟨fun s c n h => chGen_of_silent s n h, fun s c r n hr hm => chGen_of_source s n hr hm,
    fun s acc id c t n => rfl, fun s m n => rfl⟩

/-- Settles O37: the sum of no channels is +0.0 throughout, which master volume and clip keep. -/
theorem zeroChannelSilence : Obligations.ZeroChannelSilence := by
  unfold Obligations.ZeroChannelSilence
  intro s m n hm hch hr hneg
  have hz := softClip_zero_mul hr hneg
  rw [mixGen_of_no_channel hm hch, masterClip, silence, List.map_replicate]
  exact congrArg (fun w => (List.replicate n (w, w), s)) hz

end Sys2Proof
end

section
/-! The commands of the mixer and its channels, MIX_GENERATE and SRC_GENERATE (44_channel_mixer.md R476-R484). -/

namespace Sys2Proof.Machine

open Claim

/-! ## Commands on the mixer -/

/-- A command on MIXER, its null result on an error `r0` (R632). -/
def onMixer (s : State) (r0 : Word) (body : Mixer → Except ErrCode (State × Res)) : Result :=
  finish s r0 (needMixer s >>= body)

theorem onMixer_of_none {s : State} (h : s.mixer = none) (r0 : Word) (body : Mixer → Except ErrCode (State × Res)) :
    onMixer s r0 body = .next (failed s .notInit r0) := by
  rw [onMixer, needMixer_error.2 ⟨h, rfl⟩]
  rfl

theorem onMixer_of_some {s : State} {m : Mixer} (h : s.mixer = some m) (r0 : Word)
    (body : Mixer → Except ErrCode (State × Res)) : onMixer s r0 body = finish s r0 (body m) := by
  rw [onMixer, needMixer_ok.2 h]
  rfl

/-- A setter of the channel ARG0 names, with one operand checked before its body runs (R632). -/
def setterBody {β : Type} (s : State) (check : Except ErrCode β) (body : Channel → β → Channel) (m : Mixer) :
    Except ErrCode (State × Res) := do
  let c ← needChannel m s.args.a0
  let x ← check
  pure (s.setMixer (m.setChannel s.args.a0 (body c x)), resZero)

theorem exec_mixAddChannel (s : State) : exec .mixAddChannel s = onMixer s Config.nullResult fun m =>
    if m.ch.length = Config.mixMaxChannels ∨ m.nextId = 0xFFFFFFFF#32 then .error .poolFull
    else pure (s.setMixer { m with nextId := m.nextId + 1#32, ch := m.ch ++ [(m.nextId, newChannel)] },
      resOne m.nextId) := rfl

theorem exec_mixRemoveChannel (s : State) : exec .mixRemoveChannel s = onMixer s 0 fun m => (do
    let _ ← needChannel m s.args.a0
    pure (s.setMixer { m with ch := m.ch.filter (fun p => p.1 != s.args.a0) }, resOne (boolWord true))) := rfl

theorem exec_chConnect (s : State) : exec .chConnect s = onMixer s 0 fun m => (do
    let r ← srcOf s s.args.a0
    let c ← needChannel m s.args.a1
    pure (s.setMixer (m.setChannel s.args.a1 { c with src := some r }), resOne (boolWord true))) := rfl

/-- The operands of a ramped setter: a number, a flag, and with the flag a ramp time (R479, R480). -/
def rampArgs (v g ms : Word) : Except ErrCode (Word × Bool) := do
  let v ← argF v
  let g ← argFlag g
  if g && B32.isNaN ms then .error .badArg else pure (v, g)

theorem rampArgs_bind {α : Type} (v g ms : Word) (f : Word → Bool → α) :
    (do let v ← argF v
        let g ← argFlag g
        if g && B32.isNaN ms then .error .badArg else pure (f v g)) =
      (rampArgs v g ms >>= fun x => pure (f x.1 x.2) : Except ErrCode α) := by
  rw [rampArgs]
  cases argF v with
  | error e => rfl
  | ok v =>
    cases argFlag g with
    | error e => rfl
    | ok g =>
      rw [ok_bind, ok_bind, ok_bind, ok_bind]
      split <;> rfl

theorem exec_chSetVolume (s : State) :
    exec .chSetVolume s = onMixer s 0 (setterBody s (rampArgs s.args.a1 s.args.a3 s.args.a2) fun c x =>
      { c with vol := rampSet c.vol (B32.clamp x.1 B32.zero Config.volMax) s.args.a2 x.2 s.eng.sr }) :=
  congrArg (finish s 0) (bind_congr fun _ => bind_congr fun _ => rampArgs_bind ..)

theorem exec_chSetPan (s : State) :
    exec .chSetPan s = onMixer s 0 (setterBody s (rampArgs s.args.a1 s.args.a3 s.args.a2) fun c x =>
      { c with pan := rampSet c.pan (B32.clamp x.1 Config.panMin Config.panMax) s.args.a2 x.2 s.eng.sr }) :=
  congrArg (finish s 0) (bind_congr fun _ => bind_congr fun _ => rampArgs_bind ..)

theorem exec_chSetMute (s : State) :
    exec .chSetMute s = onMixer s 0 (setterBody s (argFlag s.args.a1) fun c b => { c with mute := b }) := rfl

theorem exec_mixSetMaster (s : State) : exec .mixSetMaster s = onMixer s 0 fun m => (do
    let v ← argF s.args.a0
    pure (s.setMixer { m with master := B32.clamp v B32.zero B32.one }, resZero)) := rfl

theorem exec_mixGenerate (s : State) : exec .mixGenerate s = onMixer s 0 fun m => (do
    let n ← argCount s.args.a0
    pure ((mixGen s m n).2.setSwin ((mixGen s m n).2.swin.setWords 0 (interleave (mixGen s m n).1)), resZero)) := rfl

/-! ## One entry of the channel map -/

section Entry

variable {m : Mixer} {id : Word} {c : Channel}

/-- With distinct ids, storing a channel made from the one found changes that one entry. -/
theorem setChannel_of_mem (hd : m.ch.Pairwise (fun p q => p.1 ≠ q.1)) (hc : (id, c) ∈ m.ch) (f : Channel → Channel) :
    m.setChannel id (f c) = { m with ch := m.ch.map (fun p => if p.1 = id then (p.1, f p.2) else p) } := by
  refine congrArg (fun ch => { m with ch := ch }) (List.map_congr_left fun p hp => ?_)
  split
  · next hid =>
    subst hid
    have hfind := (findChannel_of_mem hd hp).symm.trans (findChannel_of_mem hd hc)
    rw [Option.some.inj hfind]
  · rfl

theorem needChannel_of_mem (hd : m.ch.Pairwise (fun p q => p.1 ≠ q.1)) (hc : (id, c) ∈ m.ch) :
    needChannel m id = .ok c := needChannel_ok.2 (findChannel_of_mem hd hc)

theorem needChannel_of_absent (h : ∀ c, (id, c) ∉ m.ch) : needChannel m id = .error .badHandle :=
  needChannel_error.2 ⟨h, rfl⟩

end Entry

/-- The state a completed channel setter leaves. -/
def putChannel (s : State) (m : Mixer) (f : Channel → Channel) : State :=
  done { s with mixer := some { m with ch := m.ch.map (fun p => if p.1 = s.args.a0 then (p.1, f p.2) else p) } } noResult

section Setter

variable {β : Type} {i : Instr} {s : State} {m : Mixer} {check : Except ErrCode β} {body : Channel → β → Channel}
  (hi : exec i s = onMixer s 0 (setterBody s check body)) (hm : s.mixer = some m)
include hi hm

theorem setter_of_absent (h : ∀ c, (s.args.a0, c) ∉ m.ch) : exec i s = .next (failed s .badHandle 0) := by
  rw [hi, onMixer_of_some hm, setterBody, needChannel_of_absent h]
  rfl

variable {c : Channel} (hd : m.ch.Pairwise (fun p q => p.1 ≠ q.1)) (hc : (s.args.a0, c) ∈ m.ch)
include hd hc

theorem setter_of_badArg (h : check = .error .badArg) : exec i s = .next (failed s .badArg 0) := by
  rw [hi, onMixer_of_some hm, setterBody, needChannel_of_mem hd hc, h]
  rfl

theorem setter_of_ok {x : β} (h : check = .ok x) : exec i s = .next (putChannel s m fun c => body c x) := by
  rw [hi, onMixer_of_some hm, setterBody, needChannel_of_mem hd hc, h]
  exact congrArg (fun m' => Host.Outcome.next (done (s.setMixer m') noResult)) (setChannel_of_mem hd hc (body · x))

end Setter

/-! ## The operands of the ramped setters -/

theorem rampArgs_bad {v g ms : Word}
    (h : B32.isNaN v = true ∨ 1 < g.toNat ∨ (g = 1 ∧ B32.isNaN ms = true)) : rampArgs v g ms = .error .badArg := by
  cases hv : B32.isNaN v
  · rw [rampArgs, argF_number hv, ok_bind]
    rcases h with h | h | ⟨rfl, h⟩
    · rw [hv] at h; cases h
    · rw [argFlag_bad h]; rfl
    · rw [argFlag_one rfl, ok_bind, h]; rfl
  · rw [rampArgs, argF_bad hv]; rfl

theorem rampArgs_ok {v g ms : Word} (hv : B32.isNaN v = false) (h : g = 0 ∨ (g = 1 ∧ B32.isNaN ms = false)) :
    rampArgs v g ms = .ok (v, decide (g = 1)) := by
  rw [rampArgs, argF_number hv, ok_bind]
  rcases h with rfl | ⟨rfl, h⟩
  · rw [argFlag_zero rfl]; rfl
  · rw [argFlag_one rfl, ok_bind, h]; rfl

/-! ## Sources -/

section Names

variable {s : State} {h : Word} {k : Nat}

theorem srcOf_osc (hn : HandleNames s h .osc k) : srcOf s h = .ok (.osc k) := srcOf_ok.2 hn

theorem srcOf_poly (hn : HandleNames s h .poly k) : srcOf s h = .ok (.poly k) := srcOf_ok.2 hn

theorem srcOf_env (hn : HandleNames s h .env k) : srcOf s h = .ok (.env k) := srcOf_ok.2 hn

theorem srcOf_names {kind : Kind} (hk : kind ∈ srcKinds) (hn : HandleNames s h kind k) : ∃ r, srcOf s h = .ok r := by
  simp only [srcKinds, List.mem_cons, List.not_mem_nil, or_false] at hk
  obtain rfl | rfl | rfl := hk
  · exact ⟨_, srcOf_osc hn⟩
  · exact ⟨_, srcOf_poly hn⟩
  · exact ⟨_, srcOf_env hn⟩

end Names

theorem srcGen_osc {s : State} {i : Nat} {u : Osc} (h : s.osc[i]? = some (some u)) (n : Nat) :
    srcGen s (.osc i) n = ((oscGen n u s.draws.noise).1,
      { s.setOsc i (oscGen n u s.draws.noise).2.1 with
        draws := { s.draws with noise := (oscGen n u s.draws.noise).2.2 } }) := by
  simp only [srcGen, poolGet_some.2 h]

theorem srcGen_poly {s : State} {i : Nat} {u : Poly} (h : s.poly[i]? = some (some u)) (n : Nat) :
    srcGen s (.poly i) n = ((polyGen n u s.draws.noise).1,
      { s.setPoly i (polyGen n u s.draws.noise).2.1 with
        draws := { s.draws with noise := (polyGen n u s.draws.noise).2.2 } }) := by
  simp only [srcGen, poolGet_some.2 h]

theorem srcGen_env {s : State} {i : Nat} {e : Env} (h : s.env[i]? = some (some e)) (n : Nat) :
    srcGen s (.env i) n = ((envGen n e).1, s.setEnv i (envGen n e).2) := by
  simp only [srcGen, poolGet_some.2 h]

/-! ## SRC_GENERATE and MIX_GENERATE -/

theorem exec_srcGenerate (s : State) : exec .srcGenerate s = finish s 0 (do
    let r ← srcOf s s.args.a0
    let n ← argCount s.args.a1
    pure ((srcGen s r n).2.setSwin ((srcGen s r n).2.swin.setWords 0 (srcGen s r n).1), resZero)) := rfl

theorem needsHandle_srcGenerate : NeedsHandle .srcGenerate [.osc, .poly, .env] := by
  intro s hbad
  rw [exec_srcGenerate, srcOf_bad hbad]
  rfl

theorem refusesArg_srcGenerate :
    RefusesArg .srcGenerate [.osc, .poly, .env] (fun s => 8192 < s.args.a1.toNat) := by
  intro s kind k hk hn hbig
  obtain ⟨r, hr⟩ := srcOf_names hk hn
  rw [exec_srcGenerate, hr, argCount_error.2 ⟨hbig, rfl⟩]
  rfl

theorem exec_srcGenerate_of_ok {s : State} {r : SrcRef} {n : Nat} (hr : srcOf s s.args.a0 = .ok r)
    (hn : s.args.a1.toNat = n) (hle : n ≤ 8192) :
    exec .srcGenerate s = .next (done
      ((srcGen s r n).2.setSwin ((srcGen s r n).2.swin.setWords 0 (srcGen s r n).1)) noResult) := by
  rw [exec_srcGenerate, hr, argCount_ok.2 ⟨hn.trans_le hle, hn.symm⟩]
  rfl

end Sys2Proof.Machine

namespace Sys2Proof

open Machine Claim

/-- Settles O51: each command runs on MIXER; with distinct ids a connect changes the one entry of its id. -/
theorem channelMap : Obligations.ChannelMap := by
  unfold Obligations.ChannelMap
  refine ⟨⟨decode_encode .mixAddChannel, decode_encode .mixRemoveChannel, decode_encode .chConnect⟩,
    fun s h => ⟨(exec_mixAddChannel s).trans (onMixer_of_none h ..), (exec_mixRemoveChannel s).trans (onMixer_of_none h ..),
      (exec_chConnect s).trans (onMixer_of_none h ..)⟩,
    fun s m hm hd => ⟨fun hfull => ?full, fun hlen hid => ?add, fun habs => ?unknown, fun c hc => ?remove,
      fun hbad => ?handle, fun r ha hlive => ⟨fun habs => ?absent, fun c hc => ?connect⟩⟩⟩
  case full =>
    have hfull : m.ch.length = Config.mixMaxChannels ∨ m.nextId = 0xFFFFFFFF#32 := hfull
    rw [exec_mixAddChannel, onMixer_of_some hm, if_pos hfull]
    rfl
  case add =>
    have hroom : ¬ (m.ch.length = Config.mixMaxChannels ∨ m.nextId = 0xFFFFFFFF#32) := not_or.2 ⟨hlen, hid⟩
    rw [exec_mixAddChannel, onMixer_of_some hm, if_neg hroom]
    rfl
  case unknown =>
    rw [exec_mixRemoveChannel, onMixer_of_some hm, needChannel_of_absent habs]
    rfl
  case remove =>
    rw [exec_mixRemoveChannel, onMixer_of_some hm, needChannel_of_mem hd hc]
    rfl
  case handle =>
    rw [exec_chConnect, onMixer_of_some hm, srcOf_bad hbad]
    rfl
  case absent =>
    rw [exec_chConnect, onMixer_of_some hm, srcOf_ok.2 ⟨ha, hlive⟩, ok_bind, needChannel_of_absent habs]
    rfl
  case connect =>
    rw [exec_chConnect, onMixer_of_some hm, srcOf_ok.2 ⟨ha, hlive⟩, ok_bind, needChannel_of_mem hd hc]
    exact congrArg (fun m' => Host.Outcome.next (done (s.setMixer m') (result 1)))
      (setChannel_of_mem hd hc fun c => { c with src := some r })

/-- Settles O52: the three channel setters have one shape, an id and one checked operand or group of operands. -/
theorem channelSetters : Obligations.ChannelSetters := by
  unfold Obligations.ChannelSetters
  refine ⟨⟨decode_encode .chSetVolume, decode_encode .chSetPan, decode_encode .chSetMute, decode_encode .mixSetMaster⟩,
    fun s h => ?none, fun s m hm hd => ⟨fun habs => ?absent, fun c hc => ⟨fun hbad => ?rampBad, fun hv hg => ?ramp,
      fun hbad => ?muteBad, fun h0 => ?off, fun h1 => ?on⟩, fun hbad => ?masterBad, fun hv => ?master⟩⟩
  case none =>
    simp only [List.forall_mem_cons]
    exact ⟨(exec_chSetVolume s).trans (onMixer_of_none h ..), (exec_chSetPan s).trans (onMixer_of_none h ..),
      (exec_chSetMute s).trans (onMixer_of_none h ..), (exec_mixSetMaster s).trans (onMixer_of_none h ..),
      List.forall_mem_nil _⟩
  case absent =>
    simp only [List.forall_mem_cons]
    exact ⟨setter_of_absent (exec_chSetVolume s) hm habs, setter_of_absent (exec_chSetPan s) hm habs,
      setter_of_absent (exec_chSetMute s) hm habs, List.forall_mem_nil _⟩
  case rampBad =>
    simp only [List.forall_mem_cons]
    exact ⟨setter_of_badArg (exec_chSetVolume s) hm hd hc (rampArgs_bad hbad),
      setter_of_badArg (exec_chSetPan s) hm hd hc (rampArgs_bad hbad), List.forall_mem_nil _⟩
  case ramp =>
    have hvol := setter_of_ok (exec_chSetVolume s) hm hd hc (rampArgs_ok hv hg)
    have hpan := setter_of_ok (exec_chSetPan s) hm hd hc (rampArgs_ok hv hg)
    exact ⟨hvol, hpan⟩
  case muteBad => exact setter_of_badArg (exec_chSetMute s) hm hd hc (argFlag_bad hbad)
  case off => exact setter_of_ok (exec_chSetMute s) hm hd hc (argFlag_zero (by rw [h0]; rfl))
  case on => exact setter_of_ok (exec_chSetMute s) hm hd hc (argFlag_one (by rw [h1]; rfl))
  case masterBad =>
    rw [exec_mixSetMaster, onMixer_of_some hm, argF_bad hbad]
    rfl
  case master =>
    rw [exec_mixSetMaster, onMixer_of_some hm, argF_number hv]
    rfl

/-- Settles O53: MIX_GENERATE moves samples only, so SWIN is written over the old window; a SRC_GENERATE is read off
`srcGen` kind by kind. -/
theorem generate : Obligations.Generate := by
  unfold Obligations.Generate
  refine ⟨⟨decode_encode .mixGenerate, decode_encode .srcGenerate⟩,
    fun s h => (exec_mixGenerate s).trans (onMixer_of_none h ..), fun s m hm => ⟨fun hbig => ?tooLong, fun hle => ?mix⟩,
    needsHandle_srcGenerate, refusesArg_srcGenerate,
    fun s k n hn hle => ⟨fun u hh hu => ?osc, fun u hh hu => ?poly, fun e hh he => ?env⟩⟩
  case tooLong =>
    rw [exec_mixGenerate, onMixer_of_some hm, argCount_error.2 ⟨hbig, rfl⟩]
    rfl
  case mix =>
    rw [exec_mixGenerate, onMixer_of_some hm, argCount_ok.2 ⟨hle, rfl⟩, ← (samplesMoved_mixGen hm s.args.a0.toNat).swin]
    rfl
  case osc =>
    rw [exec_srcGenerate_of_ok (srcOf_osc hh) hn hle, srcGen_osc hu]
    rfl
  case poly =>
    rw [exec_srcGenerate_of_ok (srcOf_poly hh) hn hle, srcGen_poly hu]
    rfl
  case env =>
    rw [exec_srcGenerate_of_ok (srcOf_env hh) hn hle, srcGen_env he]
    rfl

end Sys2Proof
end

section
/-! A delay line over a run of writes, and the commands of the FIFO and the ring (45_buffers.md R530-R539). -/

namespace Sys2Proof.Machine

open Claim

/-! ## A delay line over a run of writes (R530, R531) -/

theorem delayBufOk_writeSamples {size : Nat} (h : 1 ≤ size) (xs : List Word) :
    DelayBufOk size (xs.foldl writeSample (newDelayBuf size)) := by
  induction xs using List.reverseRecOn with
  | nil => exact delayBufOk_new h
  | append_singleton xs x ih =>
    rw [List.foldl_concat]
    exact delayBufOk_writeSample ih x

/-- At distance `d` a line holds the sample written `d` steps ago, +0.0 where fewer were written. -/
theorem readDelayed_writeSamples {size d : Nat} (xs : List Word) (h1 : 1 ≤ d) (h2 : d ≤ size) :
    readDelayed (xs.foldl writeSample (newDelayBuf size)) d =
      if d ≤ xs.length then xs.getD (xs.length - d) 0 else 0 := by
  induction xs using List.reverseRecOn generalizing d with
  | nil => rw [List.foldl_nil, readDelayed_new, if_neg (by rw [List.length_nil]; omega)]
  | append_singleton xs x ih =>
    rw [List.foldl_concat, readDelayed_writeSample (delayBufOk_writeSamples (h1.trans h2) xs) x h1 h2,
      List.length_append, List.length_singleton]
    by_cases hd : d = 1
    · rw [if_pos hd, if_pos (by omega), hd, Nat.add_sub_cancel, List.getD_append_right _ _ _ _ le_rfl, Nat.sub_self]
      rfl
    · rw [if_neg hd, ih (by omega) (by omega), show xs.length - (d - 1) = xs.length + 1 - d by omega]
      by_cases hle : d ≤ xs.length + 1
      · rw [if_pos hle, if_pos (by omega), List.getD_append _ _ _ _ (by omega)]
      · rw [if_neg hle, if_neg (by omega)]

/-! ## Commands on a buffer

`need` is the check that the buffer is there (`needFifo`, `needRing`). -/

/-- A command that moves up to n = ARG0 samples or frames, n checked before its body runs (R532-R534, R536, R537). -/
def counted {β : Type} (s : State) (need : Except ErrCode β) (body : β → Nat → State × Res) : Result :=
  finish s 0 do
    let b ← need
    let n ← argCount s.args.a0
    pure (body b n)

/-- A command that reads a buffer's metrics (R535, R538). -/
def metered {β : Type} (s : State) (need : Except ErrCode β) (res : β → Res) : Result :=
  finish s 0 do
    let b ← need
    pure (s, res b)

section Shapes

variable {β : Type} {s : State} {need : Except ErrCode β}

theorem counted_of_absent (h : need = .error .notInit) (body : β → Nat → State × Res) :
    counted s need body = .next (failed s .notInit 0) := by
  rw [counted, h]
  rfl

theorem counted_of_badArg {b : β} (h : need = .ok b) (hn : 8192 < s.args.a0.toNat) (body : β → Nat → State × Res) :
    counted s need body = .next (failed s .badArg 0) := by
  rw [counted, h, ok_bind, argCount_error.2 ⟨hn, rfl⟩]
  rfl

theorem counted_of_ok {b : β} {n : Nat} (h : need = .ok b) (hn : s.args.a0.toNat = n) (hle : n ≤ 8192)
    (body : β → Nat → State × Res) : counted s need body = .next (done (body b n).1 (body b n).2) := by
  rw [counted, h, ok_bind, argCount_ok.2 ⟨hn.trans_le hle, hn.symm⟩]
  rfl

theorem metered_of_absent (h : need = .error .notInit) (res : β → Res) :
    metered s need res = .next (failed s .notInit 0) := by
  rw [metered, h]
  rfl

theorem metered_of_ok {b : β} (h : need = .ok b) (res : β → Res) : metered s need res = .next (done s (res b)) := by
  rw [metered, h]
  rfl

end Shapes

theorem exec_fifoWrite (s : State) : exec .fifoWrite s = counted s (needFifo s) fun f n =>
    (s.setFifo (fifoPush f (s.swin.frames n)), resOne (BitVec.ofNat 32 (min n (f.cap - f.q.length)))) := rfl

theorem exec_fifoRead (s : State) : exec .fifoRead s = counted s (needFifo s) fun f n =>
    ((s.setFifo (fifoPop f n)).setSwin (s.swin.setWords 0 (interleave (fifoFront f n))),
      resOne (BitVec.ofNat 32 (min n f.q.length))) := rfl

theorem exec_fifoPeek (s : State) : exec .fifoPeek s = counted s (needFifo s) fun f n =>
    (s.setSwin (s.swin.setWords 0 (interleave (fifoFront f n))), resOne (BitVec.ofNat 32 (min n f.q.length))) := rfl

theorem exec_fifoMetrics (s : State) : exec .fifoMetrics s = metered s (needFifo s) fun f =>
    ⟨BitVec.ofNat 32 f.q.length, BitVec.ofNat 32 f.cap, f.overflow, f.underflow, utilization f.q.length f.cap, 0⟩ := rfl

theorem exec_ringWrite (s : State) : exec .ringWrite s = counted s (needRing s) fun r n =>
    (s.setRing { ringPush r (s.swin.words (ringRoom r n)) with
        overflow := if ringRoom r n < n then satInc r.overflow else r.overflow },
      resOne (BitVec.ofNat 32 (ringRoom r n))) := rfl

theorem exec_ringRead (s : State) : exec .ringRead s = counted s (needRing s) fun r n =>
    ((s.setRing { (ringPull (min n (ringAvail r)) r).2 with
        underflow := if min n (ringAvail r) < n then satInc r.underflow else r.underflow }).setSwin
        (s.swin.setWords 0
          ((ringPull (min n (ringAvail r)) r).1 ++ List.replicate (n - min n (ringAvail r)) B32.zero)),
      resOne (BitVec.ofNat 32 (min n (ringAvail r)))) := rfl

theorem exec_ringMetrics (s : State) : exec .ringMetrics s = metered s (needRing s) fun r =>
    ⟨BitVec.ofNat 32 (ringAvail r), BitVec.ofNat 32 r.slots, r.overflow, r.underflow,
      utilization (ringAvail r) r.slots, 0⟩ := rfl

/-! ## FIFO -/

/-- The frames a write stores are the first of SWIN that fit (R532). -/
theorem fifoPush_frames (f : Fifo) (m : Memory) (n : Nat) :
    fifoPush f (m.frames n) = { f with
      q := f.q ++ m.frames (min n (f.cap - f.q.length))
      overflow := if min n (f.cap - f.q.length) < n then satInc f.overflow else f.overflow } := by
  have htake : (m.frames n).take (f.cap - f.q.length) = m.frames (min n (f.cap - f.q.length)) := by
    rw [Memory.frames, ← List.map_take, List.take_range, Nat.min_comm, Memory.frames]
  simp only [fifoPush, htake, Memory.frames_length, min_lt_iff, lt_self_iff_false, false_or]

/-- The frames a read or peek moves, by how many of them the FIFO holds (R533, R534). -/
theorem fifoFront_eq (f : Fifo) (n : Nat) :
    fifoFront f n = f.q.take (min n f.q.length) ++ List.replicate (n - min n f.q.length) (0, 0) := by
  have hpad : n - min n f.q.length = n - f.q.length := by omega
  rw [fifoFront, silence, List.take_eq_take_min, hpad]
  rfl

/-- A read removes the frames it moves (R533). -/
theorem fifoPop_eq (f : Fifo) (n : Nat) :
    fifoPop f n = { f with
      q := f.q.drop (min n f.q.length)
      underflow := if min n f.q.length < n then satInc f.underflow else f.underflow } := by
  have hdrop : f.q.drop n = f.q.drop (min n f.q.length) := List.drop_eq_drop_iff.2 (by omega)
  simp only [fifoPop, hdrop, min_lt_iff, lt_self_iff_false, false_or]

/-- A read of all the frames a FIFO holds, and no more, needs no padding. -/
theorem fifoFront_all (f : Fifo) : fifoFront f f.q.length = f.q := by
  rw [fifoFront_eq, Nat.min_self, List.take_length, Nat.sub_self, List.replicate_zero, List.append_nil]

/-- A read of all the frames a FIFO holds, and no more, empties it and counts nothing. -/
theorem fifoPop_all (f : Fifo) : fifoPop f f.q.length = { f with q := [] } := by
  rw [fifoPop_eq, Nat.min_self, List.drop_length, if_neg (Nat.lt_irrefl _)]

theorem fifoPush_fitting {f : Fifo} {fs : List Frame} (h : f.q.length + fs.length ≤ f.cap) :
    fifoPush f fs = { f with q := f.q ++ fs } := by
  rw [fifoPush, List.take_of_length_le (by omega), if_neg (by omega)]

/-- The first n frames of SWIN are its first 2n words (30_encoding.md R209). -/
theorem Memory.interleave_frames (m : Memory) (n : Nat) : interleave (m.frames n) = m.words (2 * n) := by
  induction n with
  | zero => rfl
  | succ n ih =>
    have hframes : m.frames (n + 1) = m.frames n ++ [(m.word (2 * n), m.word (2 * n + 1))] := by
      simp only [Memory.frames, List.range_succ, List.map_append, List.map_singleton]
    have hwords : m.words (2 * (n + 1)) = m.words (2 * n) ++ [m.word (2 * n), m.word (2 * n + 1)] := by
      simp only [Memory.words, Nat.mul_succ, List.range_succ, List.map_append, List.map_cons, List.map_nil,
        List.append_assoc, List.singleton_append]
    rw [hframes, hwords, ← ih]
    exact List.flatMap_append

/-- Frames read from one window and written to another from word 0 on are the same words there. -/
theorem Memory.word_setWords_frames (m m' : Memory) {n i : Nat} (hi : i < 2 * n) :
    (m'.setWords 0 (interleave (m.frames n))).word i = m.word i := by
  rw [Memory.interleave_frames, Memory.word_setWords_zero, dif_pos (by rwa [Memory.words_length])]
  simp only [Memory.words, List.getElem_map, List.getElem_range]

/-- FIFO_WRITE of frames that fit into an empty FIFO (R532). -/
theorem exec_fifoWrite_of_empty {s : State} {f : Fifo} {n : Nat} (hf : s.fifo = some f) (hempty : f.q = [])
    (hn : s.args.a0.toNat = n) (hle : n ≤ 8192) (hfits : n ≤ f.cap) :
    exec .fifoWrite s = .next (done (s.setFifo { f with q := s.swin.frames n }) (result (BitVec.ofNat 32 n))) := by
  have hpush : fifoPush f (s.swin.frames n) = { f with q := s.swin.frames n } := by
    rw [fifoPush_fitting (by rw [hempty, Memory.frames_length, List.length_nil]; omega), hempty, List.nil_append]
  rw [exec_fifoWrite, counted_of_ok (needFifo_ok.2 hf) hn hle, hpush, hempty, List.length_nil, Nat.sub_zero,
    Nat.min_eq_left hfits]
  rfl

/-- FIFO_READ of all the frames held (R533). -/
theorem exec_fifoRead_all {s : State} {f : Fifo} {n : Nat} (hf : s.fifo = some f) (hlen : f.q.length = n)
    (hn : s.args.a0.toNat = n) (hle : n ≤ 8192) :
    exec .fifoRead s = .next (done ((s.setFifo { f with q := [] }).setSwin (s.swin.setWords 0 (interleave f.q)))
      (result (BitVec.ofNat 32 n))) := by
  subst hlen
  rw [exec_fifoRead, counted_of_ok (needFifo_ok.2 hf) hn hle, fifoFront_all, fifoPop_all, Nat.min_self]
  rfl

/-! ## Ring -/

section Cursor

variable {c w i : Nat}

/-- A cursor that moved on by less than a turn stands that far from where it was. -/
theorem cursor_distance (hw : w < c) (hi : i < c) : ((w + i) % c + c - w) % c = i := by
  rw [Nat.add_sub_assoc hw.le, Nat.mod_add_mod, show w + i + (c - w) = i + c by omega, Nat.add_mod_right,
    Nat.mod_eq_of_lt hi]

/-- A cursor moved on by its distance to a slot is at that slot. -/
theorem cursor_reaches (hw : w < c) (hi : i < c) : (w + (i + c - w) % c) % c = i := by
  rw [Nat.add_mod_mod, show w + (i + c - w) = i + c by omega, Nat.add_mod_right, Nat.mod_eq_of_lt hi]

end Cursor

section Ring

variable {r : Ring}

/-- With the write cursor `n` slots past the read cursor, less than a turn, the ring holds `n` samples (10_state.md R74). -/
theorem ringAvail_of_ahead {n : Nat} (hw : r.wpos = (r.rpos + n) % r.slots) (hr : r.rpos < r.slots) (hn : n < r.slots) :
    ringAvail r = n := by
  rw [ringAvail_eq (hw.trans_lt (Nat.mod_lt _ (by omega))) hr, hw, cursor_distance hr hn]

/-- Storing samples changes slots and the write cursor only (R536). -/
theorem ringPush_eq (hw : r.wpos < r.slots) (vs : List Word) :
    ringPush r vs = { r with buf := (ringPush r vs).buf, wpos := (r.wpos + vs.length) % r.slots } := by
  obtain ⟨hslots, hrpos, hover, hunder⟩ := ringPush_fields r vs
  rw [← ringPush_wpos hw vs, ← hslots, ← hrpos, ← hover, ← hunder]

/-- The samples stored stand in the slots from the write cursor on. -/
theorem ringPush_written (hw : r.wpos < r.slots) {vs : List Word} (hl : vs.length ≤ r.slots) {i : Nat}
    (hi : i < vs.length) : storeGet (ringPush r vs).buf ((r.wpos + i) % r.slots) = vs[i] := by
  have hd := cursor_distance hw (hi.trans_le hl)
  rw [ringPush_buf hw vs hl, dif_pos ⟨Nat.mod_lt _ (by omega), by rwa [hd]⟩]
  simp only [hd]

/-- A slot the write cursor did not pass keeps its sample. -/
theorem ringPush_untouched (hw : r.wpos < r.slots) {vs : List Word} (hl : vs.length ≤ r.slots) {j : Nat}
    (hj : ∀ i, i < vs.length → j ≠ (r.wpos + i) % r.slots) :
    storeGet (ringPush r vs).buf j = storeGet r.buf j := by
  rw [ringPush_buf hw vs hl, dif_neg]
  rintro ⟨hslot, hlt⟩
  exact hj _ hlt (cursor_reaches hw hslot).symm

/-- Taking samples reads the slots from the read cursor on and moves that cursor only (R537). -/
theorem ringPull_eq (hr : r.rpos < r.slots) (k : Nat) :
    ringPull k r = ((List.range k).map (fun i => storeGet r.buf ((r.rpos + i) % r.slots)),
      { r with rpos := (r.rpos + k) % r.slots }) := by
  obtain ⟨hslots, hwpos, hbuf, hover, hunder⟩ := ringPull_fields k r
  rw [← ringPull_samples hr, ← ringPull_rpos hr, ← hslots, ← hwpos, ← hbuf, ← hover, ← hunder]

end Ring

/-- RING_WRITE with a ring: k = min(n, C - 1 - avail) samples stored, a shortfall counted (R536). -/
theorem exec_ringWrite_of_ok {s : State} {r : Ring} {n k : Nat} (hr : s.ring = some r) (hn : s.args.a0.toNat = n)
    (hle : n ≤ 8192) (hw : r.wpos < r.slots) (hk : ringRoom r n = k) :
    ∃ buf, exec .ringWrite s = .next (done { s with ring := some { r with
        buf := buf, wpos := (r.wpos + k) % r.slots, overflow := if k < n then satInc r.overflow else r.overflow } }
        (result (BitVec.ofNat 32 k))) ∧
      (∀ i, i < k → storeGet buf ((r.wpos + i) % r.slots) = s.swin.word i) ∧
      (∀ j, (∀ i, i < k → j ≠ (r.wpos + i) % r.slots) → storeGet buf j = storeGet r.buf j) := by
  have hlen : (s.swin.words k).length = k := Memory.words_length ..
  have hfits : (s.swin.words k).length ≤ r.slots := by rw [hlen, ← hk, ringRoom]; omega
  refine ⟨(ringPush r (s.swin.words k)).buf, ?_, fun i hi => ?_, fun j hj => ?_⟩
  · rw [exec_ringWrite, counted_of_ok (needRing_ok.2 hr) hn hle, hk, ringPush_eq hw, hlen]
    rfl
  · rw [ringPush_written hw hfits (hi.trans_eq hlen.symm)]
    simp only [Memory.words, List.getElem_map, List.getElem_range]
  · exact ringPush_untouched hw hfits fun i hi => hj i (hi.trans_eq hlen)

/-- RING_READ with a ring: k = min(n, avail) samples moved to SWIN, the rest +0.0, a shortfall counted (R537). -/
theorem exec_ringRead_of_ok {s : State} {r : Ring} {n k : Nat} (hr : s.ring = some r) (hn : s.args.a0.toNat = n)
    (hle : n ≤ 8192) (hrpos : r.rpos < r.slots) (hk : min n (ringAvail r) = k) :
    exec .ringRead s = .next (done { s with
      ring := some { r with
        rpos := (r.rpos + k) % r.slots, underflow := if k < n then satInc r.underflow else r.underflow }
      swin := s.swin.setWords 0 ((List.range k).map (fun i => storeGet r.buf ((r.rpos + i) % r.slots)) ++
        List.replicate (n - k) 0) } (result (BitVec.ofNat 32 k))) := by
  rw [exec_ringRead, counted_of_ok (needRing_ok.2 hr) hn hle, hk, ringPull_eq hrpos]
  rfl

end Sys2Proof.Machine

namespace Sys2Proof

open Machine Claim

/-- Settles O31: a write is read back at distance 1 and moves every older sample one further, so by induction over the
writes a distance counts them backwards. -/
theorem delayLine : Obligations.DelayLine := by
  unfold Obligations.DelayLine
  intro size dist xs hsize line d
  have hd : 1 ≤ d ∧ d ≤ size := clampNat_bounds hsize
  have hline : DelayBufOk size line := delayBufOk_writeSamples hsize xs
  have hlineSize : line.size = size := hline.1
  refine ⟨hd, hline, ?_⟩
  rw [readDelayed_clamp (hsize.trans_eq hlineSize.symm), hlineSize]
  exact readDelayed_writeSamples xs hd.1 hd.2

/-- Settles O55: the commands have one shape, a FIFO and a checked count; each body is the rule's, with the least of the
count and what the FIFO holds or has room for. -/
theorem fifoCommands : Obligations.FifoCommands := by
  unfold Obligations.FifoCommands
  refine ⟨⟨decode_encode .fifoWrite, decode_encode .fifoRead, decode_encode .fifoPeek, decode_encode .fifoMetrics⟩,
    fun s h => ?absent, fun s f n hf hn => ⟨fun hbig => ?tooMany, fun hle => ?write, fun hle => ⟨?read, ?peek⟩,
      (exec_fifoMetrics s).trans (metered_of_ok (needFifo_ok.2 hf) _)⟩⟩
  case absent =>
    have hneed := needFifo_error.2 ⟨h, rfl⟩
    simp only [List.forall_mem_cons]
    exact ⟨(exec_fifoWrite s).trans (counted_of_absent hneed _), (exec_fifoRead s).trans (counted_of_absent hneed _),
      (exec_fifoPeek s).trans (counted_of_absent hneed _), (exec_fifoMetrics s).trans (metered_of_absent hneed _),
      List.forall_mem_nil _⟩
  case tooMany =>
    have hneed := needFifo_ok.2 hf
    rw [← hn] at hbig
    simp only [List.forall_mem_cons]
    exact ⟨(exec_fifoWrite s).trans (counted_of_badArg hneed hbig _),
      (exec_fifoRead s).trans (counted_of_badArg hneed hbig _),
      (exec_fifoPeek s).trans (counted_of_badArg hneed hbig _), List.forall_mem_nil _⟩
  case write =>
    rw [exec_fifoWrite, counted_of_ok (needFifo_ok.2 hf) hn hle, fifoPush_frames]
    rfl
  case read =>
    rw [exec_fifoRead, counted_of_ok (needFifo_ok.2 hf) hn hle, fifoPop_eq, fifoFront_eq]
    rfl
  case peek =>
    rw [exec_fifoPeek, counted_of_ok (needFifo_ok.2 hf) hn hle, fifoFront_eq]
    rfl

/-- Settles O56: the commands have one shape, a ring and a checked count; for cursors inside the ring the samples it holds
are the write cursor's distance from the read cursor. -/
theorem ringCommands : Obligations.RingCommands := by
  unfold Obligations.RingCommands
  refine ⟨⟨decode_encode .ringWrite, decode_encode .ringRead, decode_encode .ringMetrics⟩, fun s h => ?absent,
    fun s r n hr hn hw hrpos => ?present⟩
  case absent =>
    have hneed := needRing_error.2 ⟨h, rfl⟩
    simp only [List.forall_mem_cons]
    exact ⟨(exec_ringWrite s).trans (counted_of_absent hneed _), (exec_ringRead s).trans (counted_of_absent hneed _),
      (exec_ringMetrics s).trans (metered_of_absent hneed _), List.forall_mem_nil _⟩
  case present =>
    have hneed := needRing_ok.2 hr
    rw [← ringAvail_eq hw hrpos]
    refine ⟨fun hbig => ?_, fun hle => exec_ringWrite_of_ok hr hn hle hw rfl,
      fun hle => exec_ringRead_of_ok hr hn hle hrpos rfl, (exec_ringMetrics s).trans (metered_of_ok hneed _)⟩
    rw [← hn] at hbig
    simp only [List.forall_mem_cons]
    exact ⟨(exec_ringWrite s).trans (counted_of_badArg hneed hbig _),
      (exec_ringRead s).trans (counted_of_badArg hneed hbig _), List.forall_mem_nil _⟩

/-- Settles O34: an empty ring's write cursor stands at the read cursor, so it has room for C - 1 samples, and a read from
there on passes the slots just written; an empty FIFO then holds exactly the frames written. -/
theorem roundTrips : Obligations.RoundTrips := by
  unfold Obligations.RoundTrips
  refine ⟨fun s r n hr hempty hrpos hn hle => ?ring, fun s f n hf hempty hn hle hfits => ?fifo⟩
  case ring =>
    have hw : r.wpos < r.slots := hempty.trans_lt hrpos
    have hnone : ringAvail r = 0 :=
      ringAvail_of_ahead (hempty.trans (Nat.mod_eq_of_lt hrpos).symm) hrpos (Nat.zero_lt_of_lt hrpos)
    refine ⟨fun hfits => ?_, fun hfull => ?_⟩
    · have hlt : n < r.slots := by omega
      have hroom : ringRoom r n = n := by rw [ringRoom, hnone]; omega
      obtain ⟨buf, hwrite, hstored, -⟩ := exec_ringWrite_of_ok hr hn hle hw hroom
      refine ⟨_, hwrite, rfl, rfl, fun m => ?_⟩
      have hheld : ringAvail { r with
          buf := buf, wpos := (r.wpos + n) % r.slots, overflow := if n < n then satInc r.overflow else r.overflow } = n :=
        ringAvail_of_ahead (congrArg (fun w => (w + n) % r.slots) hempty) hrpos hlt
      refine ⟨_, _, exec_ringRead_of_ok rfl hn hle hrpos (by rw [hheld, Nat.min_self]), rfl, rfl, fun i hi => ?_, rfl,
        congrArg (fun w => (w + n) % r.slots) hempty, if_neg (Nat.lt_irrefl n), if_neg (Nat.lt_irrefl n)⟩
      simp only [done, Memory.word_setWords_zero, Nat.sub_self, List.replicate_zero, List.append_nil, List.length_map,
        List.length_range, List.getElem_map, List.getElem_range, dif_pos hi]
      rw [← hempty]
      exact hstored i hi
    · have hroom : ringRoom r n = r.slots - 1 := by rw [ringRoom, hnone]; omega
      obtain ⟨buf, hwrite, -⟩ := exec_ringWrite_of_ok hr hn hle hw hroom
      exact ⟨_, _, hwrite, rfl, rfl, if_pos (by omega)⟩
  case fifo =>
    have hsame : some { f with q := [] } = some f := by rw [← hempty]
    exact ⟨_, exec_fifoWrite_of_empty hf hempty hn hle hfits, rfl, rfl, fun m =>
      ⟨_, exec_fifoRead_all rfl (Memory.frames_length ..) hn hle, rfl, rfl,
        fun i hi => Memory.word_setWords_frames _ m hi, hsame⟩⟩

end Sys2Proof
end

section
/-! The engine's commands and the effect chain (46_engine.md R580-R587). -/

namespace Sys2Proof.Machine

open Claim

/-! ## ENG_INIT (R580) -/

theorem exec_engInit (s : State) : exec .engInit s =
    finish s 0 (if initValid s.args.a0 s.args.a1 s.args.a2 then .ok (initialised s, resOne (boolWord true))
      else .error .configError) := rfl

/-- The only number of channels in range is 2. -/
theorem initValid_iff {sr ch bs : Word} : initValid sr ch bs = true ↔
    8000 ≤ sr.toNat ∧ sr.toNat ≤ 192000 ∧ ch = 2 ∧ 1 ≤ bs.toNat ∧ bs.toNat ≤ 8192 := by
  have hch : ch.toNat = Config.outChannels ↔ ch = 2 := BitVec.toNat_inj (y := 2#32)
  simp only [initValid, Bool.and_eq_true, decide_eq_true_eq, hch, and_assoc]
  rfl

/-- The stop request of an init takes one draw if the engine is running. -/
theorem stopIfRunning_draws (s : State) : stopIfRunning s =
    { s with draws := { s.draws with devok := s.draws.devok + (if s.eng.state = .running then 1 else 0) } } := by
  unfold stopIfRunning
  split <;> rfl

/-! ## ENG_START and ENG_STOP (R581-R583) -/

/-- The engine in a run state `e` after one request to the device. -/
def State.askedInto (s : State) (e : EngState) : State := s.deviceAsked.setEng { s.eng with state := e }

theorem exec_engStart (s : State) : exec .engStart s = execEngStart s := rfl

theorem exec_engStop (s : State) : exec .engStop s = execEngStop s := rfl

section RunState

variable {s : State}

theorem exec_engStart_of_uninit (h : s.eng.state = .uninit) : exec .engStart s = .next (failed s .notInit 0) := by
  rw [exec_engStart, execEngStart, h]
  rfl

theorem exec_engStart_of_running (h : s.eng.state = .running) : exec .engStart s = .next (done s (result 1)) := by
  rw [exec_engStart, execEngStart, h]
  rfl

/-- A start request puts the engine in RUNNING if the device accepts it, else leaves it in STOPPED. -/
theorem exec_engStart_of_stopped (h : s.eng.state = .stopped) : exec .engStart s =
    if deviceAnswer s then .next (done (s.askedInto .running) (result 1))
    else .next (failed (s.askedInto .stopped) .deviceError 0) := by
  have hsame : s.askedInto .stopped = s.deviceAsked := by rw [State.askedInto, ← h]; rfl
  rw [hsame, exec_engStart, execEngStart, h]
  rfl

theorem exec_engStop_of_not_running (h : s.eng.state ≠ .running) :
    exec .engStop s = .next (done s (result 1)) := by
  rw [exec_engStop]
  unfold execEngStop
  split
  · next hrun => exact absurd hrun h
  · rfl

/-- A stop request puts the engine in STOPPED whatever the device answers. -/
theorem exec_engStop_of_running (h : s.eng.state = .running) : exec .engStop s =
    if deviceAnswer s then .next (done (s.askedInto .stopped) (result 1))
    else .next (failed (s.askedInto .stopped) .deviceError 0) := by
  rw [exec_engStop, execEngStop, h]
  rfl

end RunState

/-! ## ENG_ADD_PROC and ENG_REMOVE_PROC (R585, R586) -/

/-- A command on the effect ARG0 names and the chain. -/
def onChain (s : State) (body : FxRef → Except ErrCode (State × Res)) : Result :=
  finish s 0 (fxOf s s.args.a0 >>= body)

theorem exec_engAddProc (s : State) : exec .engAddProc s = onChain s fun r =>
    if r ∈ s.chain then .error .duplicate
    else if s.chain.length = Config.maxChain then .error .poolFull
    else pure (s.setChain (s.chain ++ [r]), resOne (boolWord true)) := rfl

theorem exec_engRemoveProc (s : State) : exec .engRemoveProc s = onChain s fun r =>
    if r ∈ s.chain then pure (s.setChain (s.chain.filter (fun q => !decide (q = r))), resOne (boolWord true))
    else pure (s, resOne (boolWord false)) := rfl

theorem needsHandle_of_onChain {i : Instr} {body : State → FxRef → Except ErrCode (State × Res)}
    (hi : ∀ s, exec i s = onChain s (body s)) : NeedsHandle i [.dly, .flt, .rev] := by
  intro s hbad
  rw [hi, onChain, fxOf_bad hbad]
  rfl

theorem onChain_of_ok {s : State} {r : FxRef} (ha : s.args.a0 = fxHandle r) (hl : r.live s)
    (body : FxRef → Except ErrCode (State × Res)) : onChain s body = finish s 0 (body r) := by
  rw [onChain, fxOf_ok.2 ⟨ha, hl⟩]
  rfl

/-- Taking out an effect that stands in one place leaves what stands before and after it, in order. -/
theorem filter_ne_of_once {r : FxRef} {before after : List FxRef} (hb : r ∉ before) (ha : r ∉ after) :
    (before ++ r :: after).filter (fun q => !decide (q = r)) = before ++ after := by
  have hkeep {l : List FxRef} (h : r ∉ l) : l.filter (fun q => !decide (q = r)) = l :=
    List.filter_eq_self.2 fun q hq => by simp [ne_of_mem_of_not_mem hq h]
  rw [List.filter_append, List.filter_cons_of_neg (by simp), hkeep hb, hkeep ha]

end Sys2Proof.Machine

namespace Sys2Proof

open Machine Claim

/-- Settles O57: an init in range makes the initialised state, whose channel count can only be 2. -/
theorem engineInit : Obligations.EngineInit := by
  unfold Obligations.EngineInit
  refine ⟨decode_encode .engInit, fun s => ⟨fun hbad => ?refused, fun hok => ?inited⟩⟩
  case refused =>
    rw [exec_engInit, if_neg (initValid_iff.not.2 hbad)]
    rfl
  case inited =>
    have ⟨_, _, hch, _⟩ := hok
    rw [exec_engInit, if_pos (initValid_iff.2 hok), initialised, stopIfRunning_draws, hch]
    rfl

/-- Settles O58: the two commands by the engine's state and the device's answer. -/
theorem engineStartStop : Obligations.EngineStartStop := by
  unfold Obligations.EngineStartStop
  refine ⟨⟨decode_encode .engStart, decode_encode .engStop⟩, fun s => ⟨exec_engStart_of_uninit,
    exec_engStart_of_running, fun h hok => ?_, fun h hno => ?_, exec_engStop_of_not_running, fun h hok => ?_,
    fun h hno => ?_⟩⟩
  · exact (exec_engStart_of_stopped h).trans (if_pos hok)
  · exact (exec_engStart_of_stopped h).trans (if_neg (ne_true_of_eq_false hno))
  · exact (exec_engStop_of_running h).trans (if_pos hok)
  · exact (exec_engStop_of_running h).trans (if_neg (ne_true_of_eq_false hno))

/-- Settles O59: neither command checks anything, in any engine state. -/
theorem metricsAndNop : Obligations.MetricsAndNop := by
  unfold Obligations.MetricsAndNop
  exact ⟨⟨decode_encode .engGetMetrics, decode_encode .nop⟩, fun s => ⟨finish_ok s 0 s _, finish_ok s 0 s _⟩⟩

/-- Settles O60: both commands run on the effect ARG0 names; an effect in the chain once is filtered out of its place. -/
theorem chainCommands : Obligations.ChainCommands := by
  unfold Obligations.ChainCommands
  refine ⟨⟨decode_encode .engAddProc, decode_encode .engRemoveProc⟩, needsHandle_of_onChain exec_engAddProc,
    needsHandle_of_onChain exec_engRemoveProc, fun s r ha hl => ?_⟩
  have hadd := (exec_engAddProc s).trans (onChain_of_ok ha hl _)
  have hremove := (exec_engRemoveProc s).trans (onChain_of_ok ha hl _)
  refine ⟨fun hin => ?duplicate, fun hout hfull => ?full, fun hout hroom => ?added, fun hout => ?absent,
    fun before after hchain hb hafter => ?removed⟩
  case duplicate => rw [hadd, if_pos hin]; rfl
  case full => rw [hadd, if_neg hout, if_pos (show s.chain.length = Config.maxChain from hfull)]; rfl
  case added => rw [hadd, if_neg hout, if_neg (show ¬ s.chain.length = Config.maxChain from hroom)]; rfl
  case absent => rw [hremove, if_neg hout]; rfl
  case removed =>
    have hin : r ∈ s.chain := by rw [hchain]; exact List.mem_append_cons_self
    rw [hremove, if_pos hin, hchain, filter_ne_of_once hb hafter]
    rfl

end Sys2Proof
end

section
/-! Frame requests: the block, its peak, what a request leaves unchanged, and that it does not tell STOPPED from RUNNING
(46_engine.md R589-R594). -/

namespace Sys2Proof.B32

/-! ## The greater of two magnitudes -/

theorem maxF_choice (a b : Word) : maxF a b = a ∨ maxF a b = b := by
  rw [maxF]
  split
  · exact .inr rfl
  · exact .inl rfl

/-- A finite word with no sign, as `abs` makes one. -/
def Magnitude (x : Word) : Prop := isFinite x = true ∧ sign x = false

theorem magnitude_abs {x : Word} (h : isFinite x = true) : Magnitude (abs x) := ⟨by rwa [isFinite_abs], sign_abs x⟩

theorem Magnitude.maxF {a b : Word} (ha : Magnitude a) (hb : Magnitude b) : Magnitude (maxF a b) := by
  rcases maxF_choice a b with h | h <;> rw [h]
  · exact ha
  · exact hb

theorem mag_maxF {a b : Word} (ha : Magnitude a) (hb : Magnitude b) : mag (maxF a b) = max (mag a) (mag b) := by
  obtain ⟨fa, sa⟩ := ha
  obtain ⟨fb, sb⟩ := hb
  have hlt : lt a b = true ↔ mag a < mag b := by
    rw [lt_iff_val fa fb, ← key_lt_key_iff, key_eq_signed, key_eq_signed, sa, sb, signed_false, signed_false]
    exact Int.ofNat_lt
  rw [B32.maxF]
  split
  · next h => rw [max_eq_right (hlt.1 h).le]
  · next h => rw [max_eq_left (not_lt.1 fun hm => h (hlt.2 hm))]

end Sys2Proof.B32

namespace Sys2Proof.Machine

/-! ## The block of a request (R589, R590) -/

theorem chainRun_eq_foldl (rs : List FxRef) (fs : List Frame) (s : State) :
    chainRun rs fs s = rs.foldl (fun p r => fxRun p.2 r p.1) (fs, s) := by
  induction rs generalizing fs s with
  | nil => rfl
  | cons r rs ih => exact ih _ _

theorem frameBlock_eq_foldl (s : State) (m : Mixer) (n : Nat) :
    frameBlock s m n = s.chain.foldl (fun p r => fxRun p.2 r p.1) (mixGen s m n) := chainRun_eq_foldl _ _ _

theorem allFinite_iff {fs : List Frame} :
    allFinite fs = true ↔ ∀ f ∈ fs, B32.isFinite f.1 = true ∧ B32.isFinite f.2 = true := by
  simp only [allFinite, List.all_eq_true, Bool.and_eq_true]

theorem not_allFinite_iff {fs : List Frame} :
    ¬ allFinite fs = true ↔ ∃ f ∈ fs, B32.isFinite f.1 = false ∨ B32.isFinite f.2 = false := by
  simp only [allFinite_iff, not_forall, exists_prop, not_and_or, Bool.not_eq_true]

/-! ## The peak of a block (R592) -/

/-- `p` is the largest magnitude of the block, +0.0 for a silent one. -/
structure IsPeak (p : Word) (fs : List Frame) : Prop where
  magnitude : B32.Magnitude p
  bound : ∀ f ∈ fs, B32.mag f.1 ≤ B32.mag p ∧ B32.mag f.2 ≤ B32.mag p
  reached : B32.mag p = 0 ∨ ∃ f ∈ fs, p = B32.abs f.1 ∨ p = B32.abs f.2

theorem isPeak_nil : IsPeak B32.zero [] := ⟨⟨rfl, rfl⟩, fun _ => nofun, .inl rfl⟩

/-- One frame more: the peak so far or one of the frame's two magnitudes, whichever is largest. -/
theorem IsPeak.concat {p : Word} {fs : List Frame} {f : Frame} (h : IsPeak p fs) (hl : B32.isFinite f.1 = true)
    (hr : B32.isFinite f.2 = true) :
    IsPeak (B32.maxF p (B32.maxF (B32.abs f.1) (B32.abs f.2))) (fs ++ [f]) := by
  have hl := B32.magnitude_abs hl
  have hr := B32.magnitude_abs hr
  have hmag := B32.mag_maxF h.magnitude (hl.maxF hr)
  rw [B32.mag_maxF hl hr, B32.mag_abs, B32.mag_abs] at hmag
  have hlast : f ∈ fs ++ [f] := List.mem_append_right _ List.mem_cons_self
  refine ⟨h.magnitude.maxF (hl.maxF hr), fun g hg => ?_, ?_⟩
  · rcases List.mem_append.1 hg with hg | hg
    · have := h.bound g hg
      omega
    · cases List.mem_singleton.1 hg
      omega
  · rcases B32.maxF_choice p (B32.maxF (B32.abs f.1) (B32.abs f.2)) with he | he <;> rw [he]
    · exact h.reached.imp_right fun ⟨g, hg, hp⟩ => ⟨g, List.mem_append_left _ hg, hp⟩
    · exact .inr ⟨f, hlast, B32.maxF_choice _ _⟩

theorem isPeak_blockPeak {fs : List Frame} (h : allFinite fs = true) : IsPeak (blockPeak fs) fs := by
  rw [allFinite_iff] at h
  induction fs using List.reverseRecOn with
  | nil => exact isPeak_nil
  | append_singleton fs f ih =>
    obtain ⟨hl, hr⟩ := h f (List.mem_append_right _ List.mem_cons_self)
    rw [blockPeak, List.foldl_concat]
    exact (ih fun g hg => h g (List.mem_append_left _ hg)).concat hl hr

/-! ## The paths of a request (R590, R591) -/

section Paths

variable {s : State} {n : Nat} (hn : 0 < n)
include hn

theorem frameRequest_of_refused (h : s.eng.state = .uninit ∨ s.eng.bufsz.toNat < n) :
    frameRequest s n = errorPath (drawCpuLoad s) n := by
  rw [frameRequest, if_neg hn.ne', if_pos h]

theorem frameRequest_of_served (hs : s.eng.state ≠ .uninit) (hle : n ≤ s.eng.bufsz.toNat) {m : Mixer}
    (hm : s.mixer = some m) : frameRequest s n =
      frameEnd (frameBlock (drawCpuLoad s) m n).2 (frameBlock (drawCpuLoad s) m n).1 n := by
  rw [frameRequest, if_neg hn.ne', if_neg (not_or.2 ⟨hs, hle.not_gt⟩), hm]

theorem frameRequest_of_no_mixer (hm : s.mixer = none) : frameRequest s n = errorPath (drawCpuLoad s) n := by
  rw [frameRequest, if_neg hn.ne', hm]
  exact ite_self _

end Paths

/-! ## What a request leaves unchanged (R590, R645) -/

/-- Everything but the units, the mixer, the engine record, the output region and the draws but DEVOK. -/
structure SameCommandSide (s t : State) : Prop where
  swin : t.swin = s.swin
  cmd : t.cmd = s.cmd
  args : t.args = s.args
  err : t.err = s.err
  res : t.res = s.res
  fifo : t.fifo = s.fifo
  ring : t.ring = s.ring
  chain : t.chain = s.chain
  inputs : t.inputs = s.inputs
  rdata : t.rdata = s.rdata
  cpBase : t.cpBase = s.cpBase
  epool : t.epool = s.epool
  devok : t.draws.devok = s.draws.devok

theorem SameCommandSide.refl (s : State) : SameCommandSide s s :=
  ⟨rfl, rfl, rfl, rfl, rfl, rfl, rfl, rfl, rfl, rfl, rfl, rfl, rfl⟩

section Kept

variable {s t : State} (h : SameCommandSide s t)
include h

theorem SameCommandSide.moved {u : State} (hm : SamplesMoved t u) : SameCommandSide s u :=
  ⟨hm.swin.trans h.swin, hm.cmd.trans h.cmd, hm.args.trans h.args, hm.err.trans h.err, hm.res.trans h.res,
    hm.fifo.trans h.fifo, hm.ring.trans h.ring, hm.chain.trans h.chain, hm.inputs.trans h.inputs,
    hm.rdata.trans h.rdata, hm.cpBase.trans h.cpBase, hm.epool.trans h.epool, hm.devok.trans h.devok⟩

/-- Neither the output region nor the engine record belongs to the command side. -/
theorem SameCommandSide.metrics (out : List Word) (e : Engine) {d : Draws} (hd : d.devok = t.draws.devok) :
    SameCommandSide s { t with out := out, eng := e, draws := d } :=
  ⟨h.swin, h.cmd, h.args, h.err, h.res, h.fifo, h.ring, h.chain, h.inputs, h.rdata, h.cpBase, h.epool,
    hd.trans h.devok⟩

theorem SameCommandSide.errorPath (n : Nat) : SameCommandSide s (errorPath t n) := h.metrics _ _ rfl

theorem SameCommandSide.frameEnd (fs : List Frame) (n : Nat) : SameCommandSide s (frameEnd t fs n) := by
  unfold Machine.frameEnd
  split
  · exact h.metrics _ _ rfl
  · exact h.errorPath n

end Kept

theorem sameCommandSide_frameRequest (s : State) (n : Nat) : SameCommandSide s (frameRequest s n) := by
  have hdraw : SameCommandSide s (drawCpuLoad s) := (SameCommandSide.refl s).metrics s.out _ rfl
  rcases frameRequest_cases s n with ⟨-, he⟩ | ⟨-, he⟩ | ⟨-, -, -, m, hm, he⟩ <;> rw [he]
  · exact .refl s
  · exact hdraw.errorPath n
  · exact (hdraw.moved (samplesMoved_frameBlock hm n)).frameEnd _ n

/-! ## The output region (20_memory.md R156) -/

/-- The region holds 2n words, every one finite. -/
def OutFull (n : Nat) (t : State) : Prop := t.out.length = 2 * n ∧ ∀ w ∈ t.out, B32.isFinite w = true

theorem outFull_errorPath (s : State) (n : Nat) : OutFull n (errorPath s n) := by
  refine ⟨List.length_replicate, fun w hw => ?_⟩
  rw [List.eq_of_mem_replicate hw]
  rfl

theorem outFull_frameEnd (s : State) {fs : List Frame} {n : Nat} (hlen : fs.length = n) : OutFull n (frameEnd s fs n) := by
  unfold frameEnd
  split
  · next h =>
    refine ⟨(interleave_length fs).trans (by rw [hlen]), fun w hw => ?_⟩
    obtain ⟨f, hf, hw⟩ := List.mem_flatMap.1 hw
    obtain ⟨hl, hr⟩ := allFinite_iff.1 h f hf
    simp only [List.mem_cons, List.not_mem_nil, or_false] at hw
    rcases hw with rfl | rfl
    · exact hl
    · exact hr
  · exact outFull_errorPath s n

theorem outFull_frameRequest (s : State) {n : Nat} (hn : 0 < n) : OutFull n (frameRequest s n) := by
  rcases frameRequest_cases s n with ⟨h0, -⟩ | ⟨-, he⟩ | ⟨-, -, -, m, hm, he⟩
  · omega
  · rw [he]; exact outFull_errorPath _ n
  · rw [he]; exact outFull_frameEnd _ (frameBlock_length ..)

/-! ## Generators do not read the engine record -/

section SetEng

variable (s : State) (e : Engine)

theorem srcGen_setEng (r : SrcRef) (n : Nat) :
    srcGen (s.setEng e) r n = ((srcGen s r n).1, (srcGen s r n).2.setEng e) := by
  cases r with
  | osc i =>
    cases h : poolGet s.osc i <;> simp only [srcGen, State.setEng_osc, h]
    rfl
  | poly i =>
    cases h : poolGet s.poly i <;> simp only [srcGen, State.setEng_poly, h]
    rfl
  | env i =>
    cases h : poolGet s.env i <;> simp only [srcGen, State.setEng_env, h]
    rfl

theorem fxRun_setEng (r : FxRef) (fs : List Frame) :
    fxRun (s.setEng e) r fs = ((fxRun s r fs).1, (fxRun s r fs).2.setEng e) := by
  cases r with
  | dly i =>
    cases h : poolGet s.dly i <;> simp only [fxRun, State.setEng_dly, h]
    rfl
  | flt i =>
    cases h : poolGet s.flt i <;> simp only [fxRun, State.setEng_flt, h]
    rfl
  | rev i =>
    cases h : poolGet s.rev i <;> simp only [fxRun, State.setEng_rev, h]
    rfl

theorem chGen_setEng (c : Channel) (n : Nat) :
    chGen (s.setEng e) c n = ((chGen s c n).1, (chGen s c n).2.1, (chGen s c n).2.2.setEng e) := by
  unfold chGen
  cases c.src with
  | none => rfl
  | some r => cases c.mute <;> simp [srcGen_setEng]

theorem mixChannels_setEng (n : Nat) (ch : List (Word × Channel)) (acc : List Frame) :
    mixChannels n ch acc (s.setEng e) =
      ((mixChannels n ch acc s).1, (mixChannels n ch acc s).2.1, (mixChannels n ch acc s).2.2.setEng e) := by
  induction ch generalizing acc s with
  | nil => rfl
  | cons p t ih => simp only [mixChannels, chGen_setEng, ih]

theorem mixGen_setEng (m : Mixer) (n : Nat) :
    mixGen (s.setEng e) m n = ((mixGen s m n).1, (mixGen s m n).2.setEng e) := by
  simp only [mixGen, mixChannels_setEng]
  rfl

theorem chainRun_setEng (rs : List FxRef) (fs : List Frame) :
    chainRun rs fs (s.setEng e) = ((chainRun rs fs s).1, (chainRun rs fs s).2.setEng e) := by
  induction rs generalizing fs s with
  | nil => rfl
  | cons r rs ih => simp only [chainRun, fxRun_setEng, ih]

theorem frameBlock_setEng (m : Mixer) (n : Nat) :
    frameBlock (s.setEng e) m n = ((frameBlock s m n).1, (frameBlock s m n).2.setEng e) := by
  simp only [frameBlock, mixGen_setEng, State.setEng_chain, chainRun_setEng]

end SetEng

/-! ## STOPPED and RUNNING (R594) -/

/-- `s` with the engine in another run state. -/
def State.withRun (s : State) (e : EngState) : State := s.setEng { s.eng with state := e }

theorem frameEnd_withRun (s : State) (e : EngState) (fs : List Frame) (n : Nat) :
    frameEnd (s.withRun e) fs n = (frameEnd s fs n).withRun e := by
  by_cases h : allFinite fs = true
  · rw [frameEnd, frameEnd, if_pos h, if_pos h]
    simp only [State.withRun, State.setEng]
  · rw [frameEnd, frameEnd, if_neg h, if_neg h]; rfl

/-- The block of a request is made alike in every run state. -/
theorem frameBlock_withRun {s : State} {m : Mixer} (hm : s.mixer = some m) (e : EngState) (n : Nat) :
    frameBlock (drawCpuLoad (s.withRun e)) m n =
      ((frameBlock (drawCpuLoad s) m n).1, (frameBlock (drawCpuLoad s) m n).2.withRun e) := by
  rw [State.withRun, State.withRun, (samplesMoved_frameBlock hm n).eng]
  exact frameBlock_setEng (drawCpuLoad s) _ m n

/-- Initialised engines in different run states serve a request alike. -/
theorem frameRequest_withRun {s : State} {e : EngState} (hs : s.eng.state ≠ .uninit) (he : e ≠ .uninit) (n : Nat) :
    frameRequest (s.withRun e) n = (frameRequest s n).withRun e := by
  rcases n.eq_zero_or_pos with rfl | hn
  · rfl
  · rcases Nat.lt_or_ge s.eng.bufsz.toNat n with hbig | hle
    · rw [frameRequest_of_refused (s := s.withRun e) hn (.inr hbig), frameRequest_of_refused hn (.inr hbig)]
      rfl
    · cases hm : s.mixer with
      | none =>
        rw [frameRequest_of_no_mixer (s := s.withRun e) hn hm, frameRequest_of_no_mixer hn hm]
        rfl
      | some m =>
        rw [frameRequest_of_served (s := s.withRun e) hn he hle hm, frameRequest_of_served hn hs hle hm,
          frameBlock_withRun hm, frameEnd_withRun]

end Sys2Proof.Machine

namespace Sys2Proof

open Machine

/-- Settles O39: the request's paths are the model's; a finite block's peak is found frame by frame. -/
theorem frameRequests : Obligations.FrameRequests := by
  unfold Obligations.FrameRequests
  refine fun s n => ⟨rfl, frameRequest_of_refused, fun m hn hs hle hm => ?_⟩
  rw [frameRequest_of_served hn hs hle hm, frameBlock_eq_foldl]
  refine ⟨fun hbad => if_neg (not_allFinite_iff.2 hbad), fun hfinite => ?_⟩
  have hall := allFinite_iff.2 hfinite
  have hpeak := isPeak_blockPeak hall
  exact ⟨_, if_pos hall, hpeak.bound, hpeak.magnitude.2, hpeak.reached⟩

/-- Settles O40: a request moves samples, draws cpu_load and ends, none of which touches the command side, and its block
does not depend on the run state. -/
theorem framesKeepCommandSide : Obligations.FramesKeepCommandSide := by
  unfold Obligations.FramesKeepCommandSide
  refine ⟨fun s n => ?_, fun s n => ?_⟩
  · have h := sameCommandSide_frameRequest s n
    exact ⟨h.swin, h.cmd, h.args, h.err, h.res, h.fifo, h.ring, h.chain, h.inputs, h.rdata, h.cpBase, h.epool, h.devok,
      outFull_frameRequest s⟩
  · exact frameRequest_withRun (s := s.withRun .stopped) (e := .running) nofun nofun n

end Sys2Proof
end

section
/-! Checks and their order (60_exceptions.md R631, R632): what each checking operation decides, and a run of checks of
which the first that fails decides. -/

namespace Sys2Proof.Machine

/-! ## One check -/

/-- The check `x` passes exactly if `p` holds, and else raises `e`. -/
def Decides {α : Type} (x : Except ErrCode α) (e : ErrCode) (p : Prop) : Prop :=
  (¬ p → x = .error e) ∧ (p → ∃ a, x = .ok a)

section OneCheck

variable {α β : Type} {x : Except ErrCode α} {f : α → Except ErrCode β} {e : ErrCode} {p q : Prop}

theorem decides_of_error (h : ∀ {e'}, x = .error e' ↔ ¬ p ∧ e' = e) : Decides x e p := by
  refine ⟨fun hn => h.2 ⟨hn, rfl⟩, fun hp => ?_⟩
  cases hx : x with
  | error e' => exact absurd hp (h.1 hx).1
  | ok a => exact ⟨a, rfl⟩

theorem Decides.congr (h : Decides x e p) (hpq : p ↔ q) : Decides x e q :=
  ⟨fun hn => h.1 (hpq.not.2 hn), fun hq => h.2 (hpq.2 hq)⟩

/-- Two checks with one code are one check. -/
theorem Decides.bind (hx : Decides x e p) (hf : ∀ a, x = .ok a → Decides (f a) e q) : Decides (x >>= f) e (p ∧ q) := by
  by_cases hp : p
  · obtain ⟨a, ha⟩ := hx.2 hp
    rw [ha, ok_bind]
    exact (hf a ha).congr (and_iff_right hp).symm
  · rw [hx.1 hp, error_bind]
    exact ⟨fun _ => rfl, fun h => absurd h.1 hp⟩

theorem decides_ite {c : Prop} [Decidable c] (a : α) (e : ErrCode) :
    Decides (if c then .ok a else .error e) e c := ⟨fun hn => if_neg hn, fun hc => ⟨a, if_pos hc⟩⟩

theorem decides_ok (a : α) (e : ErrCode) (h : p) : Decides (.ok a) e p := ⟨fun hn => absurd h hn, fun _ => ⟨a, rfl⟩⟩

end OneCheck

/-! ## Checks in their order -/

/-- The checks `es` are made in turn: the first that does not pass fails, and when every one passes the whole
completes. -/
def InOrder (passes fails : ErrCode → Prop) (completes : Prop) : List ErrCode → Prop
  | [] => completes
  | e :: es => (¬ passes e → fails e) ∧ (passes e → InOrder passes fails completes es)

section Order

variable {passes fails : ErrCode → Prop} {completes : Prop} {es : List ErrCode}

theorem InOrder.mono {fails' : ErrCode → Prop} {completes' : Prop} (h : InOrder passes fails completes es)
    (hf : ∀ e ∈ es, fails e → fails' e) (hc : completes → completes') : InOrder passes fails' completes' es := by
  induction es with
  | nil => exact hc h
  | cons e es ih =>
    exact ⟨fun hn => hf e (.head _) (h.1 hn), fun hp => ih (h.2 hp) fun e' he' => hf e' (.tail _ he')⟩

theorem InOrder.stops {e : ErrCode} (h : InOrder passes fails completes (e :: es)) (hn : ¬ passes e) : fails e := h.1 hn

theorem InOrder.next {e : ErrCode} (h : InOrder passes fails completes (e :: es)) (hp : passes e) :
    InOrder passes fails completes es := h.2 hp

/-- Checks that pass may be put in anywhere. -/
theorem InOrder.widen {es' : List ErrCode} (h : InOrder passes fails completes es) (hsub : es.Sublist es')
    (hnodup : es'.Nodup) (hskip : ∀ e ∈ es', e ∉ es → passes e) : InOrder passes fails completes es' := by
  induction hsub with
  | slnil => exact h
  | cons e hsub ih =>
    obtain ⟨hnew, hnodup⟩ := List.nodup_cons.1 hnodup
    have hp : passes e := hskip e (.head _) fun hmem => hnew (hsub.subset hmem)
    exact ⟨fun hn => absurd hp hn, fun _ => ih h hnodup fun e' he' => hskip e' (.tail _ he')⟩
  | cons_cons e hsub ih =>
    obtain ⟨hnew, hnodup⟩ := List.nodup_cons.1 hnodup
    refine ⟨h.1, fun hp => ih (h.2 hp) hnodup fun e' he' hout => hskip e' (.tail _ he') ?_⟩
    exact List.not_mem_cons_of_ne_of_not_mem (fun heq => hnew (heq ▸ he')) hout

theorem InOrder.verdict (h : InOrder passes fails completes es) : completes ∨ ∃ e ∈ es, ¬ passes e ∧ fails e := by
  induction es with
  | nil => exact .inl h
  | cons e es ih =>
    by_cases hp : passes e
    · exact (ih (h.2 hp)).imp id fun ⟨e', hmem, hfail⟩ => ⟨e', .tail _ hmem, hfail⟩
    · exact .inr ⟨e, .head _, hp, h.1 hp⟩

end Order

/-- A command's body makes the checks `es` in turn. -/
abbrev Judges {α : Type} (passes : ErrCode → Prop) (x : Except ErrCode α) : List ErrCode → Prop :=
  InOrder passes (fun e => x = .error e) (∃ a, x = .ok a)

section Body

variable {α β : Type} {passes : ErrCode → Prop} {x : Except ErrCode α} {e : ErrCode} {es : List ErrCode}

theorem Judges.bind {f : α → Except ErrCode β} (hx : Decides x e (passes e))
    (hf : ∀ a, x = .ok a → Judges passes (f a) es) : Judges passes (x >>= f) (e :: es) := by
  refine ⟨fun hn => by rw [hx.1 hn, error_bind], fun hp => ?_⟩
  obtain ⟨a, ha⟩ := hx.2 hp
  rw [ha, ok_bind]
  exact hf a ha

theorem Decides.judges (h : Decides x e (passes e)) : Judges passes x [e] := h

theorem Judges.ite {c : Prop} [Decidable c] (hc : c ↔ ¬ passes e) (hx : ¬ c → Judges passes x es) :
    Judges passes (if c then .error e else x) (e :: es) := by
  refine ⟨fun hn => if_pos (hc.2 hn), fun hp => ?_⟩
  have hno : ¬ c := fun h => hc.1 h hp
  rw [if_neg hno]
  exact hx hno

theorem judges_ok (a : α) : Judges passes (.ok a) [] := ⟨a, rfl⟩

end Body

/-! ## What the checking operations decide (30_encoding.md R201, 60_exceptions.md R631) -/

section Operations

variable {s : State} {w : Word}

theorem decides_argF : Decides (argF w) .badArg (FormOk s .f32 w) :=
  decides_of_error (by simp [argF_error, FormOk])

theorem decides_argCount : Decides (argCount w) .badArg (FormOk s .u32 w) :=
  decides_of_error (argCount_error.trans (and_congr_left' Nat.not_le.symm))

theorem decides_argFlag : Decides (argFlag w) .badArg (FormOk s .flag w) :=
  decides_of_error (argFlag_error.trans (and_congr_left' Nat.not_lt.symm))

theorem decides_argNote : Decides (argNote w) .badArg (FormOk s .note w) :=
  decides_of_error (argNote_error.trans (and_congr_left' Nat.not_lt.symm))

theorem decides_argIndex (max : Nat) : Decides (argIndex max w) .badArg (FormOk s (.code max) w) :=
  decides_of_error (argIndex_error.trans (and_congr_left' Nat.not_le.symm))

theorem decides_argWave : Decides (argWave w) .badArg (FormOk s (.code 4) w) :=
  decides_of_error (argWave_error.trans (and_congr_left' Nat.not_le.symm))

theorem decides_argMode : Decides (argMode w) .badArg (FormOk s (.code 2) w) :=
  decides_of_error (argMode_error.trans (and_congr_left' Nat.not_le.symm))

theorem decides_needInit : Decides (needInit s) .notInit (s.eng.state ≠ .uninit) :=
  decides_of_error (needInit_error.trans (and_congr_left' not_not.symm))

theorem decides_needMixer : Decides (needMixer s) .notInit (s.mixer ≠ none) :=
  decides_of_error (needMixer_error.trans (and_congr_left' not_not.symm))

theorem decides_needFifo : Decides (needFifo s) .notInit (s.fifo ≠ none) :=
  decides_of_error (needFifo_error.trans (and_congr_left' not_not.symm))

theorem decides_needRing : Decides (needRing s) .notInit (s.ring ≠ none) :=
  decides_of_error (needRing_error.trans (and_congr_left' not_not.symm))

theorem decides_needSlot {α : Type} {p : List (Option α)} : Decides (needSlot p) .poolFull (¬ none ∉ p) :=
  decides_of_error (needSlot_error.trans (and_congr_left' not_not.symm))

theorem decides_needChannel {m : Mixer} (hm : s.mixer = some m) :
    Decides (needChannel m w) .badHandle (FormOk s .chanId w) :=
  decides_of_error (by simp [needChannel_error, FormOk, hm])

theorem decides_srcOf : Decides (srcOf s w) .badHandle (FormOk s (.handle srcKinds) w) :=
  decides_of_error ⟨fun h => ⟨not_not.2 (srcOf_error h).2, (srcOf_error h).1⟩,
    fun ⟨hbad, he⟩ => he ▸ srcOf_bad (not_not.1 hbad)⟩

theorem decides_fxOf : Decides (fxOf s w) .badHandle (FormOk s (.handle fxKinds) w) :=
  decides_of_error ⟨fun h => ⟨not_not.2 (fxOf_error h).2, (fxOf_error h).1⟩,
    fun ⟨hbad, he⟩ => he ▸ fxOf_bad (not_not.1 hbad)⟩

/-- `hget` is that a slot of the kind named by a valid handle holds a record of the pool. -/
theorem decides_unitOf {α : Type} {kind : Kind} {p : List (Option α)}
    (hget : ∀ {k}, HandleNames s w kind k → ∃ u, poolGet p k = some u) :
    Decides (unitOf s kind p w) .badHandle (FormOk s (.handle [kind]) w) := by
  refine ⟨fun hbad => unitOf_bad (not_not.1 hbad), fun hok => ?_⟩
  simp only [FormOk, BadHandle, List.forall_mem_singleton, not_forall, not_not] at hok
  obtain ⟨k, hn⟩ := hok
  obtain ⟨u, hu⟩ := hget hn
  exact ⟨(k, u), unitOf_names hn hu⟩

end Operations

/-! ## The operands of a command (30_encoding.md R201, R202) -/

/-- The operands check 3 covers (R632); check 4 covers the others. -/
def nameOperands (i : Instr) (s : State) : List (OperandForm × Word) :=
  (checkedOperands i s).filter fun p => isName p.1

def valueOperands (i : Instr) (s : State) : List (OperandForm × Word) :=
  (checkedOperands i s).filter fun p => !isName p.1

/-- Every operand of a list is accepted. -/
def AllOk (s : State) (l : List (OperandForm × Word)) : Prop := ∀ p ∈ l, FormOk s p.1 p.2

theorem allOk_nil {s : State} : AllOk s [] := fun _ => nofun

theorem allOk_cons {s : State} {f : OperandForm} {w : Word} {l : List (OperandForm × Word)} :
    AllOk s ((f, w) :: l) ↔ FormOk s f w ∧ AllOk s l := List.forall_mem_cons

theorem allOk_one {s : State} {f : OperandForm} {w : Word} : AllOk s [(f, w)] ↔ FormOk s f w :=
  List.forall_mem_singleton

theorem namesOk_iff {i : Instr} {s : State} : NamesOk i s ↔ AllOk s (nameOperands i s) := by
  simp only [NamesOk, AllOk, nameOperands, List.mem_filter, and_imp]

theorem valuesOk_iff {i : Instr} {s : State} (hi : i ≠ .engInit) : ValuesOk i s ↔ AllOk s (valueOperands i s) := by
  simp only [ValuesOk, hi, false_implies, and_true, AllOk, valueOperands, List.mem_filter, and_imp, Bool.not_eq_true']

section Operands

variable {s : State} {v w : Word}

theorem decides_noOperand {α : Type} (a : α) (e : ErrCode) : Decides (.ok a) e (AllOk s []) := decides_ok a e allOk_nil

/-- The first operand's check, and then those of the others. -/
theorem Decides.operand {α β : Type} {x : Except ErrCode α} {f : α → Except ErrCode β} {e : ErrCode}
    {form : OperandForm} {l : List (OperandForm × Word)} (hx : Decides x e (FormOk s form w))
    (hf : ∀ a, x = .ok a → Decides (f a) e (AllOk s l)) : Decides (x >>= f) e (AllOk s ((form, w) :: l)) :=
  (hx.bind hf).congr allOk_cons.symm

/-- The check of the last operand. -/
theorem Decides.only {α : Type} {x : Except ErrCode α} {e : ErrCode} {form : OperandForm}
    (h : Decides x e (FormOk s form w)) : Decides x e (AllOk s [(form, w)]) := h.congr allOk_one.symm

/-- A velocity is never refused (R201). -/
theorem decides_noteAndVelocity : Decides (argNote w) .badArg (AllOk s [(.note, w), (.vel, v)]) :=
  decides_argNote.congr (allOk_cons.trans (and_iff_left (allOk_one.2 (show FormOk s .vel v from trivial)))).symm

theorem decides_argParam : Decides (argParam v w) .badArg (AllOk s [(.code 3, v), (.f32, w)]) :=
  .operand (decides_argIndex 3) fun _ _ => .operand decides_argF fun _ _ => decides_noOperand ..

/-- The ramp time is checked only with the flag set (44_channel_mixer.md R479). -/
theorem decides_rampArgs {g : Word} : Decides (rampArgs v g w) .badArg
    (AllOk s ((.f32, v) :: (.flag, g) :: if g.toNat % 2 = 1 then [(.f32, w)] else [])) := by
  refine .operand decides_argF fun v hv => .operand decides_argFlag fun b hb => ?_
  obtain ⟨hlt, rfl⟩ := argFlag_ok.1 hb
  have hodd : g.toNat % 2 = 1 ↔ g.toNat = 1 := by omega
  rw [if_congr hodd rfl rfl]
  by_cases hg : g.toNat = 1
  · simp only [hg, decide_true, Bool.true_and, if_true]
    cases hw : B32.isNaN w
    · exact decides_ok _ _ (allOk_one.2 hw)
    · exact ⟨fun _ => rfl, fun h => absurd (allOk_one.1 h) (by simp [FormOk, hw])⟩
  · simp only [hg, decide_false, Bool.false_and, Bool.false_eq_true, if_false]
    exact decides_noOperand ..

end Operands

end Sys2Proof.Machine
end

section
/-! The checks of every command in their order (60_exceptions.md R632), read off the commands' shapes, and the table of
the codes a command can raise. -/

namespace Sys2Proof.Machine

open Claim

/-! ## What each check of a command asks (60_exceptions.md R632) -/

/-- The check of command `i` that raises a code passes. -/
def Passes (i : Instr) (s : State) : ErrCode → Prop
  | .notInit => EngineReady i s
  | .badHandle => NamesOk i s
  | .badArg | .configError => ValuesOk i s
  | .duplicate => ¬ Duplicate i s
  | .poolFull => ¬ NoRoom i s
  | .deviceError => ¬ DeviceRefuses i s
  | .ok | .illegalCmd => True

/-- The code of check 4: ENG_INIT's values are a configuration. -/
def valueCode (i : Instr) : ErrCode := if i = .engInit then .configError else .badArg

/-- The codes of the checks 2 to 6 in their order. -/
def checkCodes (i : Instr) : List ErrCode := [.notInit, .badHandle, valueCode i, .duplicate, .poolFull, .deviceError]

/-- RES0 of a command that fails with a code (R633). -/
def failWord (i : Instr) : ErrCode → Word
  | .notInit | .poolFull => failResult i
  | _ => 0

/-- Command `i` fails with a code; what else a device's refusal changes is left open. -/
def Fails (i : Instr) (s : State) : ErrCode → Prop
  | .deviceError => ∃ t, exec i s = .next t ∧ t.err = .deviceError ∧ t.res = noResult
  | e => exec i s = .next (failed s e (failWord i e))

/-- Command `i` completes with ERR = OK. -/
def Completes (i : Instr) (s : State) : Prop := ∃ t, exec i s = .next t ∧ t.err = .ok

/-- The first check of `i` that fails decides its code, and when none fails it completes. -/
def Answers (i : Instr) (s : State) : Prop := InOrder (Passes i s) (Fails i s) (Completes i s) (checkCodes i)

theorem passes_valueCode {i : Instr} {s : State} : Passes i s (valueCode i) ↔ ValuesOk i s := by
  unfold valueCode
  split <;> rfl

theorem fails_valueCode {i : Instr} {s : State} :
    Fails i s (valueCode i) ↔ exec i s = .next (failed s (valueCode i) 0) := by
  unfold valueCode
  split <;> rfl

theorem checkCodes_nodup (i : Instr) : (checkCodes i).Nodup := by cases i <;> decide

/-! ## When each check passes -/

theorem engineReady_of_not_possible {i : Instr} (h : .notInit ∉ possibleCodes i) (s : State) : EngineReady i s := by
  have hnone : (createdKind i).isSome = false ∧ i ≠ .engStart ∧ i ∉ mixerCommands ∧ i ∉ fifoCommands ∧
      i ∉ ringCommands := by
    revert h; cases i <;> decide
  simp [EngineReady, hnone]

theorem engineReady_of_create {i : Instr} (h : (createdKind i).isSome = true ∨ i = .engStart) (s : State) :
    EngineReady i s ↔ s.eng.state ≠ .uninit := by
  have hother : i ∉ mixerCommands ∧ i ∉ fifoCommands ∧ i ∉ ringCommands := by
    revert h; cases i <;> decide
  simp [EngineReady, h, hother]

theorem decides_mixerReady {i : Instr} (h : i ∈ mixerCommands) (s : State) :
    Decides (needMixer s) .notInit (EngineReady i s) := by
  have hother : ¬ ((createdKind i).isSome = true ∨ i = .engStart) ∧ i ∉ fifoCommands ∧ i ∉ ringCommands := by
    revert h; cases i <;> decide
  exact decides_needMixer.congr (by simp [EngineReady, h, hother])

theorem decides_fifoReady {i : Instr} (h : i ∈ fifoCommands) (s : State) :
    Decides (needFifo s) .notInit (EngineReady i s) := by
  have hother : ¬ ((createdKind i).isSome = true ∨ i = .engStart) ∧ i ∉ mixerCommands ∧ i ∉ ringCommands := by
    revert h; cases i <;> decide
  exact decides_needFifo.congr (by simp [EngineReady, h, hother])

theorem decides_ringReady {i : Instr} (h : i ∈ ringCommands) (s : State) :
    Decides (needRing s) .notInit (EngineReady i s) := by
  have hother : ¬ ((createdKind i).isSome = true ∨ i = .engStart) ∧ i ∉ mixerCommands ∧ i ∉ fifoCommands := by
    revert h; cases i <;> decide
  exact decides_needRing.congr (by simp [EngineReady, h, hother])

/-- CH_SET_VOLUME and CH_SET_PAN check the ramp time as the number it is. -/
theorem rampOperand_form {s : State} {p : OperandForm × Word} (h : p ∈ checkedOperands .chSetVolume s) :
    p.1 ∈ Instr.chSetVolume.operands := by
  have hsub : [.chanId, .f32, .flag] ⊆ Instr.chSetVolume.operands := by decide
  rcases List.mem_append.1 h with h | h
  · exact hsub (List.mem_map_of_mem (f := Prod.fst) h)
  · split at h
    · obtain rfl := List.mem_singleton.1 h
      exact hsub (.tail _ (.head _))
    · cases h

/-- An operand that is checked can raise its code. -/
theorem operand_code_possible {i : Instr} {s : State} {p : OperandForm × Word} (h : p ∈ checkedOperands i s) :
    (if isName p.1 then .badHandle else .badArg) ∈ possibleCodes i := by
  have hforms : ∀ f ∈ i.operands, i ≠ .engInit → (if isName f then .badHandle else .badArg) ∈ possibleCodes i := by
    cases i <;> decide
  unfold checkedOperands at h
  split at h
  · cases h
  · exact hforms _ (rampOperand_form h) nofun
  · exact hforms _ (rampOperand_form h) nofun
  · next hi _ _ => exact hforms _ (List.of_mem_zip h).1 hi

/-- A command that can find no room lists POOL_FULL. -/
theorem poolFull_possible {i : Instr} {s : State} (h : NoRoom i s) : .poolFull ∈ possibleCodes i := by
  cases i
  case oscCreate | polyCreate | envCreate | epoolCreate | dlyCreate | fltCreate | revCreate | mixAddChannel
      | engAddProc => decide
  all_goals exact h.elim

/-- A check whose code the table does not list for a command passes in every state. -/
theorem passes_of_not_possible {i : Instr} {e : ErrCode} (he : e ∈ checkCodes i) (h : e ∉ possibleCodes i) (s : State) :
    Passes i s e := by
  cases e with
  | notInit => exact engineReady_of_not_possible h s
  | badHandle => exact fun p hp hn => absurd (by simpa [hn] using operand_code_possible hp) h
  | badArg =>
    have hi : i ≠ .engInit := by rintro rfl; exact absurd he (by decide)
    exact ⟨fun p hp hn => absurd (by simpa [hn] using operand_code_possible hp) h, fun heq => absurd heq hi⟩
  | configError =>
    have hi : i = .engInit := by revert he; cases i <;> decide
    subst hi
    exact absurd (by decide) h
  | duplicate => rintro ⟨rfl, -⟩; exact h (by decide)
  | poolFull => exact fun hroom => h (poolFull_possible hroom)
  | deviceError => rintro ⟨⟨rfl, -⟩ | ⟨rfl, -⟩, -⟩ <;> exact h (by decide)
  | ok | illegalCmd => trivial

/-! ## From a command's body to its answer -/

/-- The checks `es` are in order, hold every one `i` can fail, the device's not among them, and a failure of each leaves
`r0` in RES0. -/
abbrev Covers (i : Instr) (r0 : Word) (es : List ErrCode) : Prop :=
  es.Sublist (checkCodes i) ∧ (∀ e ∈ checkCodes i, e ∉ es → e ∉ possibleCodes i) ∧ .deviceError ∉ es ∧
    ∀ e ∈ es, failWord i e = r0

theorem Covers.ne_engInit {i : Instr} {r0 : Word} {es : List ErrCode} (h : Covers i r0 es) (he : .badArg ∈ es) :
    i ≠ .engInit := by
  rintro rfl
  exact absurd (h.1.subset he) (by decide)

/-- The checks that are left out pass. -/
theorem answers_of_inOrder {i : Instr} {s : State} {es : List ErrCode}
    (h : InOrder (Passes i s) (Fails i s) (Completes i s) es) (hsub : es.Sublist (checkCodes i))
    (hrest : ∀ e ∈ checkCodes i, e ∉ es → e ∉ possibleCodes i) : Answers i s :=
  h.widen hsub (checkCodes_nodup i) fun e he hout => passes_of_not_possible he (hrest e he hout) s

theorem answers_of_body {i : Instr} {s : State} {r0 : Word} {x : Except ErrCode (State × Res)} {es : List ErrCode}
    (hi : exec i s = finish s r0 x) (h : Judges (Passes i s) x es) (hes : Covers i r0 es := by decide) :
    Answers i s := by
  obtain ⟨hsub, hrest, hdev, hr0⟩ := hes
  refine answers_of_inOrder (h.mono (fun e he hx => ?_) ?_) hsub hrest
  · have hfail : exec i s = .next (failed s e (failWord i e)) := by rw [hi, hx, hr0 e he]; rfl
    cases e
    case deviceError => exact absurd he hdev
    all_goals exact hfail
  · rintro ⟨⟨t, r⟩, hx⟩
    exact ⟨t.succeed r, by rw [hi, hx, finish_ok], rfl⟩

/-! ## The commands by their shape -/

section Shapes

variable {i : Instr} {s : State}

theorem Decides.names {α : Type} {x : Except ErrCode α} (h : Decides x .badHandle (AllOk s (nameOperands i s))) :
    Decides x .badHandle (Passes i s .badHandle) := h.congr namesOk_iff.symm

theorem Decides.values {α : Type} {x : Except ErrCode α} (h : Decides x .badArg (AllOk s (valueOperands i s)))
    (hi : i ≠ .engInit) : Decides x .badArg (Passes i s .badArg) := h.congr (valuesOk_iff hi).symm

theorem answers_unchecked {t : State} {r : Res} (hi : exec i s = finish s 0 (.ok (t, r)))
    (hes : Covers i 0 [] := by decide) : Answers i s := answers_of_body hi (judges_ok _) hes

theorem answers_created {α : Type} {kind : Kind} {p : List (Option α)} {put : Nat → State}
    (hi : exec i s = created s kind p put) (hkind : createdKind i = some kind := by rfl)
    (hroom : NoRoom i s ↔ none ∉ p := by rfl) (hes : Covers i Config.nullResult [.notInit, .poolFull] := by decide) :
    Answers i s := by
  refine answers_of_body hi (.bind ?_ fun _ _ => .bind ?_ fun _ _ => judges_ok _) hes
  · exact decides_needInit.congr (engineReady_of_create (.inl (Option.isSome_of_eq_some hkind)) s).symm
  · exact decides_needSlot.congr hroom.not.symm

theorem answers_onUnit {α β : Type} {kind : Kind} {p : List (Option α)} {check : Except ErrCode β}
    {body : Nat × α → β → Except ErrCode (State × Res)} (hi : exec i s = onUnit s kind p check body)
    (hget : ∀ {k}, HandleNames s s.args.a0 kind k → ∃ u, poolGet p k = some u)
    (hcheck : Decides check .badArg (AllOk s (valueOperands i s)))
    (hbody : ∀ ku x, unitOf s kind p s.args.a0 = .ok ku → check = .ok x → ∃ a, body ku x = .ok a)
    (hname : nameOperands i s = [(.handle [kind], s.args.a0)] := by rfl)
    (hes : Covers i 0 [.badHandle, .badArg] := by decide) : Answers i s := by
  have hunit : Decides (unitOf s kind p s.args.a0) .badHandle (AllOk s (nameOperands i s)) :=
    hname ▸ (decides_unitOf hget).only
  exact answers_of_body (es := [.badHandle, .badArg]) hi (.bind hunit.names fun ku hku =>
    .bind (hcheck.values (hes.ne_engInit (by decide))) fun x hx => hbody ku x hku hx) hes

/-- A body that checks nothing more completes. -/
theorem answers_onUnit_of_pure {α β : Type} {kind : Kind} {p : List (Option α)} {check : Except ErrCode β}
    {body : Nat × α → β → State × Res} (hi : exec i s = onUnit s kind p check fun ku x => .ok (body ku x))
    (hget : ∀ {k}, HandleNames s s.args.a0 kind k → ∃ u, poolGet p k = some u)
    (hcheck : Decides check .badArg (AllOk s (valueOperands i s)))
    (hname : nameOperands i s = [(.handle [kind], s.args.a0)] := by rfl)
    (hes : Covers i 0 [.badHandle, .badArg] := by decide) : Answers i s :=
  answers_onUnit hi hget hcheck (fun _ _ _ _ => ⟨_, rfl⟩) hname hes

theorem answers_onFx {β : Type} {check : Except ErrCode β} {body : FxRef → β → State}
    (hi : exec i s = onFx s check body)
    (hcheck : Decides check .badArg (AllOk s (valueOperands i s)))
    (hname : nameOperands i s = [(.handle fxKinds, s.args.a0)] := by rfl)
    (hes : Covers i 0 [.badHandle, .badArg] := by decide) : Answers i s := by
  have hfx : Decides (fxOf s s.args.a0) .badHandle (AllOk s (nameOperands i s)) := hname ▸ decides_fxOf.only
  exact answers_of_body hi
    (.bind hfx.names fun _ _ => .bind (hcheck.values (hes.ne_engInit (by decide))) fun _ _ => judges_ok _) hes

theorem answers_onMixer {r0 : Word} {body : Mixer → Except ErrCode (State × Res)} {es : List ErrCode}
    (hi : exec i s = onMixer s r0 body) (hbody : ∀ m, s.mixer = some m → Judges (Passes i s) (body m) es)
    (hmem : i ∈ mixerCommands := by decide) (hes : Covers i r0 (.notInit :: es) := by decide) : Answers i s :=
  answers_of_body hi (.bind (decides_mixerReady hmem s) fun m hm => hbody m (needMixer_ok.1 hm)) hes

theorem answers_setter {β : Type} {check : Except ErrCode β} {body : Channel → β → Channel}
    (hi : exec i s = onMixer s 0 (setterBody s check body)) (hname : nameOperands i s = [(.chanId, s.args.a0)])
    (hcheck : Decides check .badArg (AllOk s (valueOperands i s))) (hmem : i ∈ mixerCommands := by decide)
    (hes : Covers i 0 [.notInit, .badHandle, .badArg] := by decide) : Answers i s := by
  refine answers_onMixer hi (fun m hm => ?_) hmem hes
  have hchannel : Decides (needChannel m s.args.a0) .badHandle (AllOk s (nameOperands i s)) :=
    hname ▸ (decides_needChannel hm).only
  exact .bind hchannel.names fun _ _ => .bind (hcheck.values (hes.ne_engInit (by decide))) fun _ _ => judges_ok _

theorem answers_counted {β : Type} {need : Except ErrCode β} {body : β → Nat → State × Res}
    (hi : exec i s = counted s need body) (hneed : Decides need .notInit (EngineReady i s))
    (hvalue : valueOperands i s = [(.u32, s.args.a0)] := by rfl)
    (hes : Covers i 0 [.notInit, .badArg] := by decide) : Answers i s := by
  have hcount : Decides (argCount s.args.a0) .badArg (AllOk s (valueOperands i s)) := hvalue ▸ decides_argCount.only
  exact answers_of_body hi
    (.bind hneed fun _ _ => .bind (hcount.values (hes.ne_engInit (by decide))) fun _ _ => judges_ok _) hes

theorem answers_metered {β : Type} {need : Except ErrCode β} {res : β → Res}
    (hi : exec i s = metered s need res) (hneed : Decides need .notInit (EngineReady i s))
    (hes : Covers i 0 [.notInit] := by decide) : Answers i s :=
  answers_of_body hi (.bind hneed fun _ _ => judges_ok _) hes

end Shapes

/-- The operands of CH_SET_VOLUME and CH_SET_PAN (44_channel_mixer.md R479, R480). -/
theorem nameOperands_ramped (s : State) : nameOperands .chSetVolume s = [(.chanId, s.args.a0)] := by
  by_cases h : s.args.a3.toNat % 2 = 1 <;> simp [nameOperands, checkedOperands, isName, h]

theorem valueOperands_ramped (s : State) : valueOperands .chSetVolume s =
    (.f32, s.args.a1) :: (.flag, s.args.a3) :: if s.args.a3.toNat % 2 = 1 then [(.f32, s.args.a2)] else [] := by
  by_cases h : s.args.a3.toNat % 2 = 1 <;> simp [valueOperands, checkedOperands, isName, h]

/-! ## The commands with a body of their own -/

theorem valuesOk_engInit {s : State} :
    ValuesOk .engInit s ↔ initValid s.args.a0 s.args.a1 s.args.a2 = true := by
  simp only [initValid, Bool.and_eq_true, decide_eq_true_eq, and_assoc]
  exact ⟨fun h => h.2 rfl, fun h => ⟨nofun, fun _ => h⟩⟩

theorem duplicate_iff {s : State} {r : FxRef} (hr : fxOf s s.args.a0 = .ok r) :
    Duplicate .engAddProc s ↔ r ∈ s.chain := by
  obtain ⟨ha, hl⟩ := fxOf_ok.1 hr
  refine ⟨fun ⟨_, r', hmem, hl', ha'⟩ => ?_, fun hmem => ⟨rfl, r, hmem, hl, ha⟩⟩
  rwa [Except.ok.inj (hr.symm.trans (fxOf_ok.2 ⟨ha', hl'⟩))]

theorem noRoom_mixAddChannel {s : State} {m : Mixer} (hm : s.mixer = some m) :
    NoRoom .mixAddChannel s ↔ m.ch.length = 8 ∨ m.nextId = 0xFFFFFFFF#32 := by
  simp [NoRoom, hm]

theorem answers_engAddProc (s : State) : Answers .engAddProc s := by
  refine answers_of_body (es := [.badHandle, .duplicate, .poolFull]) (exec_engAddProc s)
    (.bind (Decides.names decides_fxOf.only) fun r hr => .ite ?duplicate fun _ => .ite ?room fun _ => judges_ok _)
  case duplicate => exact (duplicate_iff hr).symm.trans not_not.symm
  case room => exact not_not.symm

theorem answers_mixAddChannel (s : State) : Answers .mixAddChannel s :=
  answers_onMixer (es := [.poolFull]) (exec_mixAddChannel s) fun _ hm =>
    .ite ((noRoom_mixAddChannel hm).symm.trans not_not.symm) fun _ => judges_ok _

theorem answers_chConnect (s : State) : Answers .chConnect s :=
  answers_onMixer (es := [.badHandle]) (exec_chConnect s) fun _ hm => Decides.judges (Decides.names
    (.operand decides_srcOf fun _ _ => .operand (decides_needChannel hm) fun _ _ => decides_noOperand ..))

theorem answers_mixRemoveChannel (s : State) : Answers .mixRemoveChannel s :=
  answers_onMixer (exec_mixRemoveChannel s) fun _ hm =>
    .bind (Decides.names (decides_needChannel hm).only) fun _ _ => judges_ok _

theorem answers_engInit (s : State) : Answers .engInit s :=
  answers_of_body (es := [.configError]) (exec_engInit s) ((decides_ite _ _).congr valuesOk_engInit.symm)

theorem answers_epoolGet {s : State} (hs : Sound s) : Answers .epoolGet s := by
  refine answers_onUnit (exec_epoolGet s) HandleNames.epool_get (decides_argIndex 7).only fun kp j hkp hj => ?_
  obtain ⟨hj, rfl⟩ := argIndex_ok.1 hj
  have hlen : kp.2.member.length = 8 := (hs.epool.2 _ (poolGet_mem (unitOf_ok hkp).2)).2.1
  rw [List.getElem?_eq_getElem (by omega)]
  exact ⟨_, rfl⟩

theorem deviceRefuses_engStart {s : State} :
    DeviceRefuses .engStart s ↔ s.eng.state = .stopped ∧ deviceAnswer s = false := by simp [DeviceRefuses]

theorem deviceRefuses_engStop {s : State} :
    DeviceRefuses .engStop s ↔ s.eng.state = .running ∧ deviceAnswer s = false := by simp [DeviceRefuses]

theorem answers_engStart (s : State) : Answers .engStart s := by
  have hready : EngineReady .engStart s ↔ s.eng.state ≠ .uninit := engineReady_of_create (.inr rfl) s
  refine answers_of_inOrder (es := [.notInit, .deviceError])
    ⟨fun hn => ?uninit, fun hr => ⟨fun hd => ?refused, fun hd => ?_⟩⟩ (by decide) (by decide)
  case uninit => exact exec_engStart_of_uninit (not_not.1 (hready.not.1 hn))
  case refused =>
    obtain ⟨hstate, hno⟩ := deviceRefuses_engStart.1 (not_not.1 hd)
    exact ⟨_, (exec_engStart_of_stopped hstate).trans (if_neg (ne_true_of_eq_false hno)), rfl, rfl⟩
  cases hstate : s.eng.state with
  | uninit => exact absurd hstate (hready.1 hr)
  | running => exact ⟨_, exec_engStart_of_running hstate, rfl⟩
  | stopped =>
    have hyes : deviceAnswer s = true := by simpa [hstate] using deviceRefuses_engStart.not.1 hd
    exact ⟨_, (exec_engStart_of_stopped hstate).trans (if_pos hyes), rfl⟩

theorem answers_engStop (s : State) : Answers .engStop s := by
  refine answers_of_inOrder (es := [.deviceError]) ⟨fun hd => ?refused, fun hd => ?_⟩ (by decide) (by decide)
  case refused =>
    obtain ⟨hstate, hno⟩ := deviceRefuses_engStop.1 (not_not.1 hd)
    exact ⟨_, (exec_engStop_of_running hstate).trans (if_neg (ne_true_of_eq_false hno)), rfl, rfl⟩
  by_cases hstate : s.eng.state = .running
  · have hyes : deviceAnswer s = true := by simpa [hstate] using deviceRefuses_engStop.not.1 hd
    exact ⟨_, (exec_engStop_of_running hstate).trans (if_pos hyes), rfl⟩
  · exact ⟨_, exec_engStop_of_not_running hstate, rfl⟩

/-! ## Every command -/

/-- The checks of every command in their order. EPOOL_GET completes because a sound EPOOL has all its members. -/
theorem exec_answers {i : Instr} {s : State} (hs : i = .epoolGet → Sound s) : Answers i s := by
  cases i with
  | nop => exact answers_unchecked (t := s) (r := resZero) rfl
  | oscCreate => exact answers_created (exec_oscCreate s)
  | oscSetFreq => exact answers_onUnit_of_pure (exec_oscSetFreq s) HandleNames.osc_get decides_argF.only
  | oscSetAmp => exact answers_onUnit_of_pure (exec_oscSetAmp s) HandleNames.osc_get decides_argF.only
  | oscSetWave => exact answers_onUnit_of_pure (exec_oscSetWave s) HandleNames.osc_get decides_argWave.only
  | polyCreate => exact answers_created (exec_polyCreate s)
  | polyNoteOn => exact answers_onUnit_of_pure (exec_polyNoteOn s) HandleNames.poly_get decides_noteAndVelocity
  | polyNoteOff => exact answers_onUnit_of_pure (exec_polyNoteOff s) HandleNames.poly_get decides_argNote.only
  | polySetWave => exact answers_onUnit_of_pure (exec_polySetWave s) HandleNames.poly_get decides_argWave.only
  | envCreate => exact answers_created (exec_envCreate s)
  | envSetAttack => exact answers_onUnit_of_pure (exec_envSetAttack s) HandleNames.env_get decides_argF.only
  | envSetDecay => exact answers_onUnit_of_pure (exec_envSetDecay s) HandleNames.env_get decides_argF.only
  | envSetSustain => exact answers_onUnit_of_pure (exec_envSetSustain s) HandleNames.env_get decides_argF.only
  | envSetRelease => exact answers_onUnit_of_pure (exec_envSetRelease s) HandleNames.env_get decides_argF.only
  | envNoteOn => exact answers_onUnit_of_pure (exec_envNoteOn s) HandleNames.env_get (decides_noOperand ..)
  | envNoteOff => exact answers_onUnit_of_pure (exec_envNoteOff s) HandleNames.env_get (decides_noOperand ..)
  | envGet => exact answers_onUnit_of_pure (exec_envGet s) HandleNames.env_get (decides_noOperand ..)
  | epoolCreate => exact answers_created (exec_epoolCreate s)
  | epoolNoteOn => exact answers_onUnit_of_pure (exec_epoolNoteOn s) HandleNames.epool_get decides_argNote.only
  | epoolNoteOff => exact answers_onUnit_of_pure (exec_epoolNoteOff s) HandleNames.epool_get decides_argNote.only
  | epoolSet => exact answers_onUnit_of_pure (exec_epoolSet s) HandleNames.epool_get decides_argParam
  | epoolAdvance => exact answers_onUnit_of_pure (exec_epoolAdvance s) HandleNames.epool_get decides_argCount.only
  | epoolGet => exact answers_epoolGet (hs rfl)
  | dlyCreate => exact answers_created (exec_dlyCreate s)
  | dlySetTime => exact answers_onUnit_of_pure (exec_dlySetTime s) HandleNames.dly_get decides_argF.only
  | dlySetFeedback => exact answers_onUnit_of_pure (exec_dlySetFeedback s) HandleNames.dly_get decides_argF.only
  | fltCreate => exact answers_created (exec_fltCreate s)
  | fltSetMode => exact answers_onUnit_of_pure (exec_fltSetMode s) HandleNames.flt_get decides_argMode.only
  | fltSetCutoff => exact answers_onUnit_of_pure (exec_fltSetCutoff s) HandleNames.flt_get decides_argF.only
  | fltSetQ => exact answers_onUnit_of_pure (exec_fltSetQ s) HandleNames.flt_get decides_argF.only
  | revCreate => exact answers_created (exec_revCreate s)
  | revSetRoom => exact answers_onUnit_of_pure (exec_revSetRoom s) HandleNames.rev_get decides_argF.only
  | revSetDecay => exact answers_onUnit_of_pure (exec_revSetDecay s) HandleNames.rev_get decides_argF.only
  | fxSetDry => exact answers_onFx (exec_fxSetDry s) decides_argF.only
  | fxSetWet => exact answers_onFx (exec_fxSetWet s) decides_argF.only
  | fxSetBypass => exact answers_onFx (exec_fxSetBypass s) decides_argFlag.only
  | fxProcess => exact answers_onFx (exec_fxProcess s) decides_argCount.only
  | mixAddChannel => exact answers_mixAddChannel s
  | mixRemoveChannel => exact answers_mixRemoveChannel s
  | chConnect => exact answers_chConnect s
  | chSetVolume =>
    exact answers_setter (exec_chSetVolume s) (nameOperands_ramped s) (valueOperands_ramped s ▸ decides_rampArgs)
  | chSetPan =>
    exact answers_setter (exec_chSetPan s) (nameOperands_ramped s) (valueOperands_ramped s ▸ decides_rampArgs)
  | chSetMute => exact answers_setter (exec_chSetMute s) rfl decides_argFlag.only
  | mixSetMaster =>
    exact answers_onMixer (exec_mixSetMaster s) fun _ _ =>
      .bind (Decides.values decides_argF.only (by decide)) fun _ _ => judges_ok _
  | mixGenerate =>
    exact answers_onMixer (exec_mixGenerate s) fun _ _ =>
      .bind (Decides.values decides_argCount.only (by decide)) fun _ _ => judges_ok _
  | srcGenerate =>
    exact answers_of_body (exec_srcGenerate s) (.bind (Decides.names decides_srcOf.only) fun _ _ =>
      .bind (Decides.values decides_argCount.only (by decide)) fun _ _ => judges_ok _)
  | fifoWrite => exact answers_counted (exec_fifoWrite s) (decides_fifoReady (by decide) s)
  | fifoRead => exact answers_counted (exec_fifoRead s) (decides_fifoReady (by decide) s)
  | fifoPeek => exact answers_counted (exec_fifoPeek s) (decides_fifoReady (by decide) s)
  | fifoMetrics => exact answers_metered (exec_fifoMetrics s) (decides_fifoReady (by decide) s)
  | ringWrite => exact answers_counted (exec_ringWrite s) (decides_ringReady (by decide) s)
  | ringRead => exact answers_counted (exec_ringRead s) (decides_ringReady (by decide) s)
  | ringMetrics => exact answers_metered (exec_ringMetrics s) (decides_ringReady (by decide) s)
  | engInit => exact answers_engInit s
  | engStart => exact answers_engStart s
  | engStop => exact answers_engStop s
  | engGetMetrics => exact answers_unchecked (t := s) rfl
  | engAddProc => exact answers_engAddProc s
  | engRemoveProc =>
    exact answers_of_body (es := [.badHandle]) (exec_engRemoveProc s)
      (.bind (Decides.names decides_fxOf.only) fun _ _ => by split <;> exact judges_ok _)

end Sys2Proof.Machine
end

section
/-! What the order of the checks gives: the codes a command raises, and what a failed command leaves (60_exceptions.md
R632, R633). -/

namespace Sys2Proof.Machine

open Claim

/-! ## The codes a command raises (60_exceptions.md R632) -/

theorem Fails.next {i : Instr} {s : State} {e : ErrCode} (h : Fails i s e) : ∃ t, exec i s = .next t ∧ t.err = e := by
  cases e
  case deviceError => exact h.imp fun _ ht => ⟨ht.1, ht.2.1⟩
  all_goals exact ⟨_, h, rfl⟩

/-- The check that fails is one whose code the table lists. -/
theorem Answers.codes {i : Instr} {s : State} (h : Answers i s) :
    ∃ t, exec i s = .next t ∧ (t.err = .ok ∨ t.err ∈ possibleCodes i) := by
  rcases InOrder.verdict h with ⟨t, ht, hok⟩ | ⟨e, he, hn, hfail⟩
  · exact ⟨t, ht, .inl hok⟩
  · obtain ⟨t, ht, rfl⟩ := hfail.next
    exact ⟨t, ht, .inr (by_contra fun hout => hn (passes_of_not_possible he hout s))⟩

theorem epoolRead_error {s : State} {o : Option Member} {e : ErrCode} (h : epoolRead s o = .error e) : e = .badArg := by
  cases o with
  | none => cases h; rfl
  | some m => cases h

/-- EPOOL_GET of a member that is not there, which no sound state has, raises BAD_ARG too. -/
theorem epoolGet_codes (s : State) :
    ∃ t, exec .epoolGet s = .next t ∧ (t.err = .ok ∨ t.err ∈ possibleCodes .epoolGet) := by
  obtain ⟨t, ht⟩ := finish_completes s 0 _
  refine ⟨t, (exec_epoolGet s).trans ht, ?_⟩
  rcases finish_next ht with ⟨u, r, -, rfl⟩ | ⟨e, he, rfl⟩
  · exact .inl rfl
  have hcode : e = .badHandle ∨ e = .badArg := by
    rcases bind_error he with he | ⟨kp, -, he⟩
    · exact .inl (unitOf_error he)
    rcases bind_error he with he | ⟨j, -, he⟩
    · exact .inr (argIndex_error.1 he).2
    · exact .inr (epoolRead_error he)
  exact .inr (by rcases hcode with rfl | rfl <;> simp [possibleCodes])

/-- In every state a command answers a next state, with ERR = OK or a code the table lists for it. -/
theorem exec_codes (i : Instr) (s : State) : ∃ t, exec i s = .next t ∧ (t.err = .ok ∨ t.err ∈ possibleCodes i) := by
  by_cases hi : i = .epoolGet
  · subst hi; exact epoolGet_codes s
  · exact (exec_answers fun h => absurd h hi).codes

theorem exec_completes (i : Instr) (s : State) : ∃ t, exec i s = .next t := (exec_codes i s).imp fun _ => And.left

theorem err_possible {i : Instr} {s t : State} (h : exec i s = .next t) (ht : t.err ≠ .ok) :
    t.err ∈ possibleCodes i := by
  obtain ⟨u, hu, hcode⟩ := exec_codes i s
  cases hu.symm.trans h
  exact hcode.resolve_left ht

/-! ## What a failed command leaves (60_exceptions.md R633) -/

/-- Only the device's refusal changes more than the code and the results. -/
theorem Ends.eq_of_failed {i : Instr} {s t : State} (h : Ends i s t) (hok : t.err ≠ .ok) (hdev : t.err ≠ .deviceError) :
    t = { s with err := t.err, res := t.res } := by
  cases h with
  | raised e => rfl
  | refused hi hu => exact absurd rfl hdev
  | created hu hr | inited hi hv | completed hu hr => exact absurd rfl hok

theorem engStart_of_deviceError {s t : State} (h : exec .engStart s = .next t) (ht : t.err = .deviceError) :
    t = s.deviceAsked.raise .deviceError 0 := by
  rcases execEngStart_cases h with ⟨-, rfl⟩ | ⟨-, rfl⟩ | ⟨-, -, rfl⟩ | ⟨-, -, rfl⟩
  case inr.inr.inr => rfl
  all_goals cases ht

theorem engStop_of_deviceError {s t : State} (h : exec .engStop s = .next t) (ht : t.err = .deviceError) :
    t = (s.askedInto .stopped).raise .deviceError 0 := by
  rcases execEngStop_cases h with ⟨-, rfl⟩ | ⟨-, -, rfl⟩ | ⟨-, -, rfl⟩
  case inr.inr => rfl
  all_goals cases ht

theorem deviceError_possible {i : Instr} (h : .deviceError ∈ possibleCodes i) : i = .engStart ∨ i = .engStop := by
  revert h; cases i <;> decide

end Sys2Proof.Machine

namespace Sys2Proof

open Machine Claim

/-- Settles O10: a command makes the checks that can fail it in the order of R632, and the others pass. -/
theorem checkOrder : Obligations.CheckOrder := by
  unfold Obligations.CheckOrder
  refine ⟨fun i s hs => ?_, exec_codes⟩
  have h : InOrder .. := exec_answers (i := i) fun _ => hs
  have hlater (ready : EngineReady i s) (names : NamesOk i s) (values : ValuesOk i s) : InOrder .. :=
    ((h.next ready).next names).next (passes_valueCode.2 values)
  exact ⟨h.stops, fun ready => (h.next ready).stops,
    fun ready names hn => fails_valueCode.1 (((h.next ready).next names).stops (passes_valueCode.not.2 hn)),
    fun ready names values hdup => (hlater ready names values).stops (not_not.2 hdup),
    fun ready names values fresh hfull => ((hlater ready names values).next fresh).stops (not_not.2 hfull),
    fun ready names values fresh room hno => (((hlater ready names values).next fresh).next room).stops (not_not.2 hno),
    fun ready names values fresh room => (((hlater ready names values).next fresh).next room).next⟩

/-- Settles O11: a command ends by raising a code, where only ENG_START and ENG_STOP can raise the device's. -/
theorem failedCommandIsPrecise : Obligations.FailedCommandIsPrecise := by
  unfold Obligations.FailedCommandIsPrecise
  intro i s t h hok
  refine ⟨(exec_ends h).res_of_failed hok, (exec_ends h).eq_of_failed hok, ?_, ?_,
    fun hdev => deviceError_possible (hdev ▸ err_possible h hok)⟩
  · rintro hdev rfl
    rw [engStart_of_deviceError h hdev]; rfl
  · rintro hdev rfl
    rw [engStop_of_deviceError h hdev]; rfl

end Sys2Proof
end

section
/-! Which inputs the block serves and which it refuses (20_memory.md R155, 60_exceptions.md R646). -/

namespace Sys2Proof.Machine

/-- For a base that is a multiple of 4 the port accepts the aligned 4-byte accesses inside it. -/
theorem accepts_iff_aligned {base a size : Nat} (hbase : base % 4 = 0) :
    accepts base a size = true ↔ base ≤ a ∧ a < base + 0x20000 ∧ size = 4 ∧ a % 4 = 0 := by
  rw [accepts_iff]
  constructor
  · rintro ⟨off, rfl, hoff, h4, hsize⟩
    exact ⟨by omega, by omega, hsize, by omega⟩
  · rintro ⟨hlo, hhi, hsize, h4⟩
    exact ⟨a - base, by omega, by omega, by omega, hsize⟩

/-! ## Every write completes and asks for no further input -/

theorem commandWrite_completes (s : State) (w : Word) : ∃ t, commandWrite s w = .next t ∧ t.inputs = s.inputs := by
  unfold commandWrite
  split
  · next i _ =>
    obtain ⟨t, ht⟩ := exec_completes i { s with cmd := w }
    obtain ⟨-, -, -, hinputs, -⟩ := commandsKeepOperands i _ t ht
    exact ⟨t, ht, hinputs⟩
  · exact ⟨_, rfl, rfl⟩

theorem regWrite_completes (s : State) (r : PortReg) (w : Word) :
    ∃ t, regWrite s r w = .next t ∧ t.inputs = s.inputs := by
  cases r
  case cmd => exact commandWrite_completes s w
  all_goals exact ⟨_, rfl, rfl⟩

theorem portWrite_completes (s : State) (off : Nat) (w : Word) :
    ∃ t, portWrite s off w = .next t ∧ t.inputs = s.inputs := by
  unfold portWrite
  split
  · exact ⟨_, rfl, rfl⟩
  · split
    · exact regWrite_completes s _ w
    · exact ⟨_, rfl, rfl⟩

/-- The block serves every input it accepts. -/
theorem serve_completes {s : State} {e : Input} (h : Input.served s.cpBase e) :
    ∃ t, serve s e = .next t ∧ t.inputs = s.inputs := by
  cases e with
  | busRead a size => exact ⟨_, if_pos h, rfl⟩
  | busWrite a size w => exact (portWrite_completes s _ w).imp fun _ ht => ⟨(if_pos h).trans ht.1, ht.2⟩
  | frame n => exact ⟨_, rfl, (sameCommandSide_frameRequest s n).inputs⟩

theorem step_completes {s : State} {e : Input} {rest : List Input} (hin : s.inputs = e :: rest)
    (h : Input.served s.cpBase e) : ∃ t, step s = .next t ∧ t.inputs = rest := by
  rw [step_cons hin]
  exact serve_completes (s := { s with inputs := rest }) h

end Sys2Proof.Machine

namespace Sys2Proof

open Machine

/-- Settles O5: for an aligned base the port accepts exactly the accesses of the statement, and what it accepts it
serves. -/
theorem busErrors : Obligations.BusErrors := by
  unfold Obligations.BusErrors
  intro s rest a size n w hbase
  have haccepts := accepts_iff_aligned (a := a) (size := size) hbase
  refine ⟨fun hin => ⟨fun hno => ?refused, fun hyes => ?served⟩, fun hin => step_completes hin trivial⟩
  case refused =>
    rcases hin with hin | hin <;> exact (step_cons hin).trans (if_neg (haccepts.not.2 hno))
  case served =>
    rcases hin with hin | hin <;> exact step_completes hin (haccepts.2 hyes)

end Sys2Proof
end

section
/-! Before the first init: what needs the engine is not there, and a frame is silence (70_reset_and_hazards.md R681). -/

namespace Sys2Proof.Machine

/-- Each command that needs the engine reads its state, or reads the mixer, the FIFO or the ring, which a sound UNINIT
state has not. -/
theorem not_engineReady_of_uninit {s : State} (hs : Sound s) (hu : s.eng.state = .uninit) {i : Instr}
    (hi : (createdKind i).isSome = true ∨ i ∈ mixerCommands ++ fifoCommands ++ ringCommands ++ [.engStart]) :
    ¬ EngineReady i s := by
  obtain ⟨-, -, -, hmixer, hfifo, hring⟩ := hs.engine.1 hu
  rintro ⟨needsEngine, needsMixer, needsFifo, needsRing⟩
  simp only [List.mem_append, List.mem_singleton] at hi
  rcases hi with hcreate | ((hi | hi) | hi) | hstart
  · exact needsEngine (.inl hcreate) hu
  · exact needsMixer hi hmixer
  · exact needsFifo hi hfifo
  · exact needsRing hi hring
  · exact needsEngine (.inr hstart) hu

end Sys2Proof.Machine

namespace Sys2Proof

open Machine

/-- Settles O18: the first check of R632 fails for every command listed, and a frame request takes the error path, whose
count starts at the state's own because the cpu_load draw leaves it. -/
theorem beforeInit : Obligations.BeforeInit := by
  unfold Obligations.BeforeInit
  refine fun s hs hu => ⟨fun i hi => ?command, fun n hn => ?frame⟩
  case command =>
    obtain ⟨notReady, -⟩ := checkOrder.1 i s hs
    exact notReady (not_engineReady_of_uninit hs hu hi)
  case frame =>
    rw [frameRequest_of_refused hn (.inl hu)]
    exact ⟨rfl, rfl⟩

end Sys2Proof
end
